-- ==== Sys2Proof/Word.lean ====
section
/-! DEFINITION. The word types of the machine (00_scope.md R5, R6). -/

namespace Sys2Proof

/-- A byte: a general register, a timer, a memory cell, an immediate `kk` (R5, R91). -/
abbrev Byte := BitVec 8

/-- A 16-bit word: an opcode, `PC`, `I`, a stack slot (R5, R90). -/
abbrev Word := BitVec 16

/-- A 12-bit address field `nnn` (R91). -/
abbrev Addr := BitVec 12

/-- One 64-pixel row of the framebuffer: bit 0 is the rightmost screen column (R27). -/
abbrev Row := BitVec 64

/-- The index of a general register (or of a key), 0..15 (R21, R28). -/
abbrev Index := Fin 16

end Sys2Proof
end

