-- ==== Sys2Proof/Syntax.lean ====
section
/-! DEFINITION. The instructions: one constructor per row of spec/opcode_table.json (30_encoding.md R94), with the
operands of R91 and R93. Bits the decoder ignores (R99) are no operands. -/

namespace Sys2Proof

/-- The 34 instructions and the default row (30_encoding.md R94, R100). -/
inductive Instr where
  | cls                                 -- 0?E0  CLS            R200
  | ret                                 -- 0?EE  RET            R142
  | jp (nnn : Addr)                     -- 1nnn  JP nnn         R140
  | call (nnn : Addr)                   -- 2nnn  CALL nnn       R141
  | seImm (x : Index) (kk : Byte)       -- 3xkk  SE Vx, kk      R144
  | sneImm (x : Index) (kk : Byte)      -- 4xkk  SNE Vx, kk     R145
  | seReg (x y : Index)                 -- 5xy?  SE Vx, Vy      R146
  | ldImm (x : Index) (kk : Byte)       -- 6xkk  LD Vx, kk      R161
  | addImm (x : Index) (kk : Byte)      -- 7xkk  ADD Vx, kk     R162
  | ldReg (x y : Index)                 -- 8xy0  LD Vx, Vy      R163
  | orReg (x y : Index)                 -- 8xy1  OR Vx, Vy      R164
  | andReg (x y : Index)                -- 8xy2  AND Vx, Vy     R165
  | xorReg (x y : Index)                -- 8xy3  XOR Vx, Vy     R166
  | addReg (x y : Index)                -- 8xy4  ADD Vx, Vy     R167
  | sub (x y : Index)                   -- 8xy5  SUB Vx, Vy     R168
  | shr (x : Index)                     -- 8x?6  SHR Vx         R170
  | subn (x y : Index)                  -- 8xy7  SUBN Vx, Vy    R169
  | shl (x : Index)                     -- 8x?E  SHL Vx         R171
  | sneReg (x y : Index)                -- 9xy?  SNE Vx, Vy     R147
  | ldI (nnn : Addr)                    -- Annn  LD I, nnn      R173
  | jpV0 (nnn : Addr)                   -- Bnnn  JP V0, nnn     R148
  | rnd (x : Index) (kk : Byte)         -- Cxkk  RND Vx, kk     R172
  | drw (x y : Index) (n : Fin 16)      -- Dxyn  DRW Vx, Vy, n  R201
  | skp (x : Index)                     -- Ex9E  SKP Vx         R220
  | sknp (x : Index)                    -- ExA1  SKNP Vx        R221
  | ldVxDt (x : Index)                  -- Fx07  LD Vx, DT      R223
  | ldVxK (x : Index)                   -- Fx0A  LD Vx, K       R222
  | ldDtVx (x : Index)                  -- Fx15  LD DT, Vx      R224
  | ldStVx (x : Index)                  -- Fx18  LD ST, Vx      R225
  | addI (x : Index)                    -- Fx1E  ADD I, Vx      R174
  | ldF (x : Index)                     -- Fx29  LD F, Vx       R175
  | ldB (x : Index)                     -- Fx33  LD B, Vx       R190
  | storeRegs (x : Index)               -- Fx55  LD [I], Vx     R191
  | loadRegs (x : Index)                -- Fx65  LD Vx, [I]     R192
  | unrecognized (op : Word)            -- any opcode no row matches  R127
deriving DecidableEq, Repr

end Sys2Proof
end

