-- ==== Sys2Proof/WellFormed.lean ====
section
/-! DEFINITION. Which terms of `Instr` stand for an opcode. Every operand's range is in its type; what is left to check
is that an `unrecognized` opcode is one that R100 lists. -/

namespace Sys2Proof

/-- The unrecognized encodings, as 30_encoding.md R100 lists them: groups 0x0, 0xE and 0xF by the low byte, group 0x8
by the low nibble, no other group. -/
def unassigned (op : Word) : Bool :=
  let group := op.toNat / 0x1000
  let low := op.toNat % 0x100
  let nibble := op.toNat % 0x10
  (group == 0x0 && !(low == 0xE0 || low == 0xEE)) ||
  (group == 0x8 && (nibble == 8 || nibble == 9 || nibble == 0xA || nibble == 0xB || nibble == 0xC || nibble == 0xD ||
    nibble == 0xF)) ||
  (group == 0xE && !(low == 0x9E || low == 0xA1)) ||
  (group == 0xF && !(low == 0x07 || low == 0x0A || low == 0x15 || low == 0x18 || low == 0x1E || low == 0x29 ||
    low == 0x33 || low == 0x55 || low == 0x65))

/-- Well-formed instructions: the 34 with any operands, and `unrecognized` of an unassigned opcode. -/
def Instr.wf : Instr → Bool
  | .unrecognized op => unassigned op
  | .cls | .ret | .jp _ | .call _ | .seImm _ _ | .sneImm _ _ | .seReg _ _ | .ldImm _ _ | .addImm _ _ | .ldReg _ _
  | .orReg _ _ | .andReg _ _ | .xorReg _ _ | .addReg _ _ | .sub _ _ | .shr _ | .subn _ _ | .shl _ | .sneReg _ _
  | .ldI _ | .jpV0 _ | .rnd _ _ | .drw _ _ _ | .skp _ | .sknp _ | .ldVxDt _ | .ldVxK _ | .ldDtVx _ | .ldStVx _
  | .addI _ | .ldF _ | .ldB _ | .storeRegs _ | .loadRegs _ => true

end Sys2Proof
end

