-- ==== Sys2Proof/Decode.lean ====
section
/-! DEFINITION. Decoding (30_encoding.md R90 to R100, R103), total on every 16-bit opcode, and the encoder written from
the same encoding table. -/

namespace Sys2Proof

/-- `op[15:12]`, the primary group (R91). -/
def groupOf (op : Word) : BitVec 4 := op.extractLsb' 12 4

/-- `op[11:8]`, the field x (R91). -/
def xOf (op : Word) : BitVec 4 := op.extractLsb' 8 4

/-- `op[7:4]`, the field y (R91). -/
def yOf (op : Word) : BitVec 4 := op.extractLsb' 4 4

/-- `op[3:0]`, the field n (R91). -/
def nOf (op : Word) : BitVec 4 := op.extractLsb' 0 4

/-- `op[7:0]`, the field kk (R91). -/
def kkOf (op : Word) : Byte := op.extractLsb' 0 8

/-- `op[11:0]`, the field nnn (R91). -/
def nnnOf (op : Word) : Addr := op.extractLsb' 0 12

/-- A 4-bit field as an index 0..15 (R93: all 16 values are legal). -/
def fieldIndex (f : BitVec 4) : Index := f.toFin

/-- Group 0x0, by the low byte (R95). -/
def decodeGroup0 (op : Word) : Instr :=
  match kkOf op with
  | 0xE0#8 => .cls
  | 0xEE#8 => .ret
  | _ => .unrecognized op

/-- Group 0x8, by the low nibble (R96). -/
def decodeGroup8 (op : Word) : Instr :=
  let x := fieldIndex (xOf op)
  let y := fieldIndex (yOf op)
  match nOf op with
  | 0x0#4 => .ldReg x y
  | 0x1#4 => .orReg x y
  | 0x2#4 => .andReg x y
  | 0x3#4 => .xorReg x y
  | 0x4#4 => .addReg x y
  | 0x5#4 => .sub x y
  | 0x6#4 => .shr x
  | 0x7#4 => .subn x y
  | 0xE#4 => .shl x
  | _ => .unrecognized op

/-- Group 0xE, by the low byte (R97). -/
def decodeGroupE (op : Word) : Instr :=
  let x := fieldIndex (xOf op)
  match kkOf op with
  | 0x9E#8 => .skp x
  | 0xA1#8 => .sknp x
  | _ => .unrecognized op

/-- Group 0xF, by the low byte (R98). -/
def decodeGroupF (op : Word) : Instr :=
  let x := fieldIndex (xOf op)
  match kkOf op with
  | 0x07#8 => .ldVxDt x
  | 0x0A#8 => .ldVxK x
  | 0x15#8 => .ldDtVx x
  | 0x18#8 => .ldStVx x
  | 0x1E#8 => .addI x
  | 0x29#8 => .ldF x
  | 0x33#8 => .ldB x
  | 0x55#8 => .storeRegs x
  | 0x65#8 => .loadRegs x
  | _ => .unrecognized op

/-- The instruction an opcode stands for (R94): by the high nibble, then within groups 0x0, 0x8, 0xE and 0xF by the low
byte or low nibble. Log 10 (the numeric map), log 12 (the ignored bits). -/
def decode (op : Word) : Instr :=
  let x := fieldIndex (xOf op)
  let y := fieldIndex (yOf op)
  match groupOf op with
  | 0x0#4 => decodeGroup0 op
  | 0x1#4 => .jp (nnnOf op)
  | 0x2#4 => .call (nnnOf op)
  | 0x3#4 => .seImm x (kkOf op)
  | 0x4#4 => .sneImm x (kkOf op)
  | 0x5#4 => .seReg x y
  | 0x6#4 => .ldImm x (kkOf op)
  | 0x7#4 => .addImm x (kkOf op)
  | 0x8#4 => decodeGroup8 op
  | 0x9#4 => .sneReg x y
  | 0xA#4 => .ldI (nnnOf op)
  | 0xB#4 => .jpV0 (nnnOf op)
  | 0xC#4 => .rnd x (kkOf op)
  | 0xD#4 => .drw x y (fieldIndex (nOf op))
  | 0xE#4 => decodeGroupE op
  | _ => decodeGroupF op

/-- Why a byte sequence is no instruction: every opcode decodes (R100), so only its length can be wrong. -/
inductive DecodeError where
  | truncated    -- fewer than the two bytes an instruction has (R90)
deriving DecidableEq, Repr

/-- The opcode of two bytes, the one at the lower address first: big-endian (R63, R90). -/
def opcodeOf (hi lo : Byte) : Word := hi ++ lo

/-- `op[15:8]`, the byte at the lower address (R63). -/
def highByte (op : Word) : Byte := op.extractLsb' 8 8

/-- `op[7:0]`, the byte at the next address (R63). -/
def lowByte (op : Word) : Byte := op.extractLsb' 0 8

/-- Decode the first instruction of a byte sequence; answer it and the rest (R90). -/
def decodeBytes : List Byte → Except DecodeError (Instr × List Byte)
  | hi :: lo :: rest => .ok (decode (opcodeOf hi lo), rest)
  | _ => .error .truncated

/-- The opcode whose low `nbits` bits are `w` and whose other bits are 0, numbered as spec/opcode_table.json numbers
them (R91). Log 20. -/
def tableOpcode (nbits w : Nat) : Word := BitVec.ofNat 16 (w % 2 ^ nbits)

/-- The decoder's reading of a word of the opcode table, laid out as the memory stores it. Log 20. -/
def decodeTableWord (nbits w : Nat) : Option Instr :=
  match decodeBytes [highByte (tableOpcode nbits w), lowByte (tableOpcode nbits w)] with
  | .ok (i, _) => some i
  | .error _ => none

/-- An index as a 4-bit field. -/
def indexField (i : Index) : BitVec 4 := BitVec.ofFin i

/-- Format XKK (R92). -/
def encXKK (group : BitVec 4) (x : Index) (kk : Byte) : Word := group ++ indexField x ++ kk

/-- Formats XY, XYS and XYN (R92). -/
def encXYN (group : BitVec 4) (x y : Index) (n : BitVec 4) : Word := group ++ indexField x ++ indexField y ++ n

/-- Format NNN (R92). -/
def encNNN (group : BitVec 4) (nnn : Addr) : Word := group ++ nnn

/-- The opcode of an instruction, with 0 in the ignored positions (R94, R99). -/
def encode : Instr → Word
  | .cls => encXKK 0x0#4 0 0xE0#8
  | .ret => encXKK 0x0#4 0 0xEE#8
  | .jp nnn => encNNN 0x1#4 nnn
  | .call nnn => encNNN 0x2#4 nnn
  | .seImm x kk => encXKK 0x3#4 x kk
  | .sneImm x kk => encXKK 0x4#4 x kk
  | .seReg x y => encXYN 0x5#4 x y 0x0#4
  | .ldImm x kk => encXKK 0x6#4 x kk
  | .addImm x kk => encXKK 0x7#4 x kk
  | .ldReg x y => encXYN 0x8#4 x y 0x0#4
  | .orReg x y => encXYN 0x8#4 x y 0x1#4
  | .andReg x y => encXYN 0x8#4 x y 0x2#4
  | .xorReg x y => encXYN 0x8#4 x y 0x3#4
  | .addReg x y => encXYN 0x8#4 x y 0x4#4
  | .sub x y => encXYN 0x8#4 x y 0x5#4
  | .shr x => encXYN 0x8#4 x 0 0x6#4
  | .subn x y => encXYN 0x8#4 x y 0x7#4
  | .shl x => encXYN 0x8#4 x 0 0xE#4
  | .sneReg x y => encXYN 0x9#4 x y 0x0#4
  | .ldI nnn => encNNN 0xA#4 nnn
  | .jpV0 nnn => encNNN 0xB#4 nnn
  | .rnd x kk => encXKK 0xC#4 x kk
  | .drw x y n => encXYN 0xD#4 x y (indexField n)
  | .skp x => encXKK 0xE#4 x 0x9E#8
  | .sknp x => encXKK 0xE#4 x 0xA1#8
  | .ldVxDt x => encXKK 0xF#4 x 0x07#8
  | .ldVxK x => encXKK 0xF#4 x 0x0A#8
  | .ldDtVx x => encXKK 0xF#4 x 0x15#8
  | .ldStVx x => encXKK 0xF#4 x 0x18#8
  | .addI x => encXKK 0xF#4 x 0x1E#8
  | .ldF x => encXKK 0xF#4 x 0x29#8
  | .ldB x => encXKK 0xF#4 x 0x33#8
  | .storeRegs x => encXKK 0xF#4 x 0x55#8
  | .loadRegs x => encXKK 0xF#4 x 0x65#8
  | .unrecognized op => op

/-- The bytes of an instruction in memory order (R63). -/
def encodeBytes (i : Instr) : List Byte := [highByte (encode i), lowByte (encode i)]

/-- The match and mask of every instruction row of R94, in the table's order; row k is the instruction whose
`Instr.tableRow` is k (R103). -/
def opcodeTable : List (Word × Word) :=
  [(0x00E0, 0xF0FF), (0x00EE, 0xF0FF), (0x1000, 0xF000), (0x2000, 0xF000), (0x3000, 0xF000), (0x4000, 0xF000),
   (0x5000, 0xF000), (0x6000, 0xF000), (0x7000, 0xF000)] ++
  [(0x8000, 0xF00F), (0x8001, 0xF00F), (0x8002, 0xF00F), (0x8003, 0xF00F), (0x8004, 0xF00F), (0x8005, 0xF00F),
   (0x8006, 0xF00F), (0x8007, 0xF00F), (0x800E, 0xF00F)] ++
  [(0x9000, 0xF000), (0xA000, 0xF000), (0xB000, 0xF000), (0xC000, 0xF000), (0xD000, 0xF000), (0xE09E, 0xF0FF),
   (0xE0A1, 0xF0FF)] ++
  [(0xF007, 0xF0FF), (0xF00A, 0xF0FF), (0xF015, 0xF0FF), (0xF018, 0xF0FF), (0xF01E, 0xF0FF), (0xF029, 0xF0FF),
   (0xF033, 0xF0FF), (0xF055, 0xF0FF), (0xF065, 0xF0FF)]

/-- The place of an instruction's row in spec/opcode_table.json; the default row is the last, 34 (R94, R103). -/
def Instr.tableRow : Instr → Nat
  | .cls => 0 | .ret => 1 | .jp _ => 2 | .call _ => 3 | .seImm _ _ => 4 | .sneImm _ _ => 5 | .seReg _ _ => 6
  | .ldImm _ _ => 7 | .addImm _ _ => 8 | .ldReg _ _ => 9 | .orReg _ _ => 10 | .andReg _ _ => 11 | .xorReg _ _ => 12
  | .addReg _ _ => 13 | .sub _ _ => 14 | .shr _ => 15 | .subn _ _ => 16 | .shl _ => 17 | .sneReg _ _ => 18
  | .ldI _ => 19 | .jpV0 _ => 20 | .rnd _ _ => 21 | .drw _ _ _ => 22 | .skp _ => 23 | .sknp _ => 24 | .ldVxDt _ => 25
  | .ldVxK _ => 26 | .ldDtVx _ => 27 | .ldStVx _ => 28 | .addI _ => 29 | .ldF _ => 30 | .ldB _ => 31
  | .storeRegs _ => 32 | .loadRegs _ => 33 | .unrecognized _ => 34

end Sys2Proof
end

