-- ==== Sys2Proof/Config.lean ====
section
/-! DEFINITION. What is fixed for the machine: its sizes (00_scope.md R5), and the values the spec leaves open,
which are constants without a body (92_eei_decisions.md D12, D13). -/

namespace Sys2Proof.Config

/-- MEM_SIZE (R5). -/
def memSize : Nat := 4096

/-- PROGRAM_BASE, the load address and the reset value of `PC` (R5). -/
def programBase : Nat := 0x200

/-- FONT_BASE (R5). -/
def fontBase : Nat := 0

/-- MAX_PROGRAM_BYTES (R5). -/
def maxProgramBytes : Nat := 3584

/-- The highest address a two-byte fetch can start at (R63, R123). -/
def lastFetchAddress : Nat := 0xFFE

/-- FREE VALUE. The random source's answer to the n-th `RND` executed (R172, R253, D13): any byte at every
execution. Nothing in Lean can evaluate it. Log 2. -/
opaque randByte : Nat → Byte

/-- FREE VALUE. The open parameter `key_select` (R250, D12): which of several rising keys, listed in ascending order,
is delivered. It is read modulo the number of rising keys, so every choice function is covered. Log 3. -/
opaque keyPick : List Index → Nat

end Sys2Proof.Config
end

