-- ==== Sys2Proof/Machine/State.lean ====
section
/-! DEFINITION. The machine's state (10_state.md R20 to R35), as plain data, and its reset value (R33). -/

namespace Sys2Proof.Machine

/-- `M`, 4096 bytes (R31), as address and byte pairs in one canonical form: addresses strictly rising and below 4096,
no byte 0 listed. An unlisted address reads as 0x00, the reset contents R33 gives. -/
abbrev Memory := List Host.Cell

/-- `FB`, 32 rows of 64 pixels (R27). -/
abbrev Framebuffer := Vector Row 32

/-- A key snapshot: 16 booleans, true while the key is held (R28, R248). -/
abbrev Keys := Vector Bool 16

/-- The causes of 60_exceptions.md R241, code 0 to 6 in this order. -/
inductive FaultCause where
  | noFault                    -- 0
  | fetchOutOfRange            -- 1: `cycle`, PC > 0xFFE
  | memOutOfRange              -- 2: DRW, LD B, LD [I], LD Vx,[I]
  | stackOverflow              -- 3: CALL
  | addressRegisterOverflow    -- 4: ADD I, Vx
  | keyIndexOutOfRange         -- 5: SKP, SKNP
  | loadTooLarge               -- 6: host `load`
deriving DecidableEq, Repr

/-- The host's transactions (00_scope.md R4). -/
inductive Transaction where
  | reset
  | init
  | load (bytes : List Byte)
  | updateInput (keys : Keys)
  | cycle
  | display
deriving DecidableEq, Repr

/-- The MODEL'S OWN record of the other agents of 00_scope.md R4: the HOST (what it will issue, and what it has issued
since reset), the RANDOM SOURCE and the AUDIO SINK. No part of it is a register of the machine. Logs 2, 4, 5, 6, 7. -/
structure Env where
  /-- HOST: the transactions still to come, next first; when it is empty the host issues `cycle` (log 4). -/
  script : List Transaction
  /-- HOST: `init` was issued since reset (log 7). -/
  inited : Bool
  /-- HOST: `load` was issued since reset (log 7). -/
  loaded : Bool
  /-- HOST: a `cycle` was issued since reset (log 7). -/
  cycled : Bool
  /-- RANDOM SOURCE: how many bytes have been drawn; the next draw is `Config.randByte draws` (log 2). -/
  draws : Nat
  /-- AUDIO SINK: how many `BEEP` events have been received (R252, log 5). -/
  beeps : Nat
  /-- HOST: what the last `display` transaction returned (R251, log 6). -/
  frame : Option Framebuffer
deriving DecidableEq, Repr

/-- The complete state: R20's table, and the record of the other agents. -/
structure State where
  /-- `M` (R31). -/
  mem : Memory
  /-- `V[0..15]` (R21). -/
  v : Vector Byte 16
  /-- `I` (R23). -/
  i : Word
  /-- `PC` (R24). -/
  pc : Word
  /-- `STACK[0..15]` (R25). -/
  stack : Vector Word 16
  /-- `SP`, 0..16 (R25). -/
  sp : Fin 17
  /-- `DT` (R26). -/
  dt : Byte
  /-- `ST` (R26). -/
  st : Byte
  /-- `FB` (R27). -/
  fb : Framebuffer
  /-- `KEYS` (R28). -/
  keys : Keys
  /-- `WAITING` (R29). -/
  waiting : Bool
  /-- `WAIT_TARGET` (R29). -/
  waitTarget : Index
  /-- `FAULTED` (R30). -/
  faulted : Bool
  /-- `FAULT_CAUSE` (R30, R241). -/
  faultCause : FaultCause
  /-- `FAULT_INFO` (R30, R241). -/
  faultInfo : Word
  /-- The other agents (R4); the model's own. -/
  env : Env
deriving DecidableEq, Repr

/-- A step of this machine never ends in a fault outcome: the spec describes what a fault does to the state
(60_exceptions.md R242), so a fault is a NEXT state with the latch set. The type is closed and has no constructor;
nothing raises it, and it is safe. Log 1. -/
inductive Fault
deriving DecidableEq, Repr

/-- Why the model gives no meaning. -/
inductive Refusal where
  /-- Raised by an arm of `exec` for an instruction that has no meaning yet. Safe. -/
  | notModelled (mnemonic : String)
  /-- Raised by `transact` when the host issues `init` or `load` outside the contract of 70_reset_and_hazards.md R284: a
  second time, or after the first `cycle` (93_implementation_defined.md U20: 'refuse'). No instruction raises it. Safe.
  Log 7. -/
  | outsideHostContract
deriving DecidableEq, Repr

/-- How a step or a meaning ends. -/
abbrev Result := Host.Outcome State Fault Refusal

/-- The other agents before anything happened: DESIGN CHOICE, logs 2, 4, 5, 6, 7. -/
def Env.start : Env :=
  { script := [], inited := false, loaded := false, cycled := false, draws := 0, beeps := 0, frame := none }

/-- The machine right after reset (10_state.md R33, 70_reset_and_hazards.md R280): all zero, `PC` = 0x200. -/
def State.reset : State :=
  { mem := []
    v := Vector.replicate 16 0#8
    i := 0#16
    pc := 0x200#16
    stack := Vector.replicate 16 0#16
    sp := 0
    dt := 0#8
    st := 0#8
    fb := Vector.replicate 32 0#64
    keys := Vector.replicate 16 false
    waiting := false
    waitTarget := 0
    faulted := false
    faultCause := .noFault
    faultInfo := 0#16
    env := Env.start }

end Sys2Proof.Machine
end

