-- ==== Sys2Proof/Machine/Flags.lean ====
section
/-! DEFINITION. The values instructions write to VF (10_state.md R22). -/

namespace Sys2Proof.Machine

/-- Register 15, the flag register by convention (R22). -/
def flagReg : Index := 15

/-- 1 or 0. -/
def flagOf (c : Bool) : Byte := if c then 1#8 else 0#8

/-- The 9-bit sum exceeds 255 (R167). -/
def carries (a b : Byte) : Bool := decide (a.toNat + b.toNat > 255)

/-- The 16-bit address sum exceeds 0xFFFF (R174). -/
def addressOverflows (i : Word) (b : Byte) : Bool := decide (i.toNat + b.toNat > 0xFFFF)

/-- The flag of `SUB` and `SUBN`: unsigned, strictly greater (R168, R169). -/
def greaterFlag (a b : Byte) : Byte := flagOf (decide (b.toNat < a.toNat))

/-- The flag of `SHR`: the bit shifted out (R170). -/
def shrFlag (a : Byte) : Byte := a &&& 0x01#8

/-- The flag of `SHL`: bit 3 left in place, not bit 7 (R171). Log 17. -/
def shlFlag (a : Byte) : Byte := a &&& 0x08#8

end Sys2Proof.Machine
end

