-- ==== Sys2Proof/Machine/Operands.lean ====
section
/-! DEFINITION. Operand forms: immediates, indices and the values computed from them (30_encoding.md R93, and the
instruction rules named at each). -/

namespace Sys2Proof.Machine

/-- A byte zero-extended to 16 bits (R93). -/
def zextByte (b : Byte) : Word := b.setWidth 16

/-- A 12-bit address zero-extended to 16 bits (R93). -/
def zextAddr (nnn : Addr) : Word := nnn.setWidth 16

/-- The address of the font glyph of a digit: five bytes a glyph, the whole register used (R175). -/
def glyphAddress (b : Byte) : Word := zextByte b * 5#16

/-- The hundreds, tens and units of a byte (R190). -/
def bcdDigits (b : Byte) : List Byte := [b / 100#8, b / 10#8 % 10#8, b % 10#8]

/-- Whether the `len` bytes from `base` up all lie in memory; no wrap (R62, R193). -/
def fits (base : Word) (len : Nat) : Bool := len == 0 || decide (base.toNat + len - 1 ≤ 0xFFF)

/-- The lowest address above 0xFFF that an access from `base` up would touch: max(I, 0x1000) (R193, R241). -/
def firstOutside (base : Word) : Word := if base.toNat ≤ 0x1000 then 0x1000#16 else base

/-- The start column of a sprite: V[x] mod 64 (R201, R202). Log 14. -/
def spriteColumn (vx : Byte) : Nat := vx.toNat % 64

/-- The framebuffer row of sprite row `k`: (V[y] + k) mod 32 (R201). -/
def spriteRow (vy : Byte) (k : Nat) : Fin 32 := Fin.ofNat 32 (vy.toNat + k)

/-- Where the 8 pixels of a sprite byte fall in a row, from column `col` on, with horizontal wrap (R202). -/
def rowMask (b : Byte) (col : Nat) : Row :=
  let w : Row := b.setWidth 64
  if col ≤ 56 then w <<< (56 - col) else (w >>> (col - 56)) ||| (w <<< (64 - (col - 56)))

/-- The keys that go from not held to held, in ascending order (R248). -/
def risingKeys (old new : Keys) : List Index := (List.finRange 16).filter fun k => !old[k] && new[k]

/-- `key_select`: one of the rising keys `k :: ks` (R250); with one there is no choice. Log 3. -/
def selectKey (k : Index) : List Index → Index
  | [] => k
  | k' :: ks => (k :: k' :: ks).getD (Config.keyPick (k :: k' :: ks) % (ks.length + 2)) k

end Sys2Proof.Machine
end

