-- ==== Sys2Proof/Machine/Ops.lean ====
section
/-! DEFINITION. The named operations over memory and state that the instructions share. -/

namespace Sys2Proof.Machine

/-! ### Memory (20_memory.md) -/

/-- Every entry from address `lo` up: strictly rising, below 4096, no byte 0. -/
def Memory.wfFrom : Nat → Memory → Bool
  | _, [] => true
  | lo, (k, b) :: m => decide (lo ≤ k) && decide (k < Config.memSize) && (b != 0#8) && Memory.wfFrom (k + 1) m

/-- The canonical form of memory: equal memories are equal lists. -/
def Memory.wf (m : Memory) : Bool := Memory.wfFrom 0 m

/-- `MemRead(a, 1)` (R62). An unlisted address reads as 0x00 (R33). Log 22. -/
def Memory.read : Memory → Nat → Byte
  | [], _ => 0#8
  | (k, b) :: m, a => if k = a then b else Memory.read m a

/-- Set the byte at `a`, keeping the canonical form. -/
def Memory.put : Memory → Nat → Byte → Memory
  | [], a, b => if b = 0#8 then [] else [(a, b)]
  | (k, c) :: m, a, b =>
    if a < k then (if b = 0#8 then (k, c) :: m else (a, b) :: (k, c) :: m)
    else if a = k then (if b = 0#8 then m else (a, b) :: m)
    else (k, c) :: Memory.put m a b

/-- `MemWrite(a, 1, b)` (R62). There is no byte above 0xFFF, so nothing is written there: every instruction checks its
whole range first, so none gets here with such an address. Log 22. -/
def Memory.write (m : Memory) (a : Nat) (b : Byte) : Memory := if a < Config.memSize then m.put a b else m

/-- Write bytes from `a` up, lowest address first (R64, R68). -/
def Memory.writeBytes : Memory → Nat → List Byte → Memory
  | m, _, [] => m
  | m, a, b :: bs => Memory.writeBytes (m.write a b) (a + 1) bs

/-- Read `n` bytes from `a` up, lowest address first (R64, R68). -/
def Memory.readBytes (m : Memory) (a : Nat) : Nat → List Byte
  | 0 => []
  | n + 1 => m.read a :: Memory.readBytes m (a + 1) n

/-! ### Registers -/

/-- `V[r]` (R21). -/
def State.readV (s : State) (r : Index) : Byte := s.v[r]

/-- `V[r] <- b` (R21). -/
def State.writeV (s : State) (r : Index) (b : Byte) : State := { s with v := s.v.set r b }

/-- `V[0] .. V[x]`, lowest first (R191). -/
def State.regsThrough (s : State) (x : Index) : List Byte := s.v.toList.take (x.val + 1)

/-- `V[r] <- M[I + r]` for r = 0 .. x (R192). -/
def State.loadThrough (s : State) (x : Index) : State :=
  { s with v := Vector.ofFn fun r : Fin 16 => if r ≤ x then s.mem.read (s.i.toNat + r.val) else s.v[r] }

/-- `I <- a` (R23). -/
def State.setI (s : State) (a : Word) : State := { s with i := a }

/-- `PC <- a` (R24). -/
def State.setPc (s : State) (a : Word) : State := { s with pc := a }

/-- `PC <- P + 2` (R129). -/
def State.advance (s : State) : State := s.setPc (s.pc + 2#16)

/-- `skip_if(c)`: `PC <- P + 4` if `c`, else `PC <- P + 2` (R143). -/
def State.skipIf (s : State) (c : Bool) : State := s.setPc (if c then s.pc + 4#16 else s.pc + 2#16)

/-- `DT <- b` (R224). -/
def State.setDt (s : State) (b : Byte) : State := { s with dt := b }

/-- `ST <- b` (R225). -/
def State.setSt (s : State) (b : Byte) : State := { s with st := b }

/-- The memory replaced. -/
def State.setMem (s : State) (m : Memory) : State := { s with mem := m }

/-- The framebuffer replaced. -/
def State.setFb (s : State) (fb : Framebuffer) : State := { s with fb := fb }

/-! ### The call stack (R25) -/

/-- `STACK[SP] <- a; SP <- SP + 1`, for `SP` < 16 (R141). -/
def State.push (s : State) (a : Word) (h : s.sp.val < 16) : State :=
  { s with stack := s.stack.set s.sp.val a, sp := ⟨s.sp.val + 1, by omega⟩ }

/-- `SP <- SP - 1; PC <- STACK[SP]; STACK[SP] <- 0`, for `SP` > 0 (R142). -/
def State.pop (s : State) (_h : 0 < s.sp.val) : State :=
  { s with
    pc := s.stack[s.sp.val - 1]
    stack := s.stack.set (s.sp.val - 1) 0#16
    sp := ⟨s.sp.val - 1, by omega⟩ }

/-! ### Faults (60_exceptions.md) -/

/-- The code of a cause (R241). -/
def FaultCause.code : FaultCause → BitVec 3
  | .noFault => 0
  | .fetchOutOfRange => 1
  | .memOutOfRange => 2
  | .stackOverflow => 3
  | .addressRegisterOverflow => 4
  | .keyIndexOutOfRange => 5
  | .loadTooLarge => 6

/-- TAKING A FAULT (R242): the latch is set, cause and info recorded, and nothing else changes; control goes nowhere.
There is no return from one: only `reset` clears the latch (R243). Log 1. -/
def State.raise (s : State) (c : FaultCause) (info : Word) : State :=
  { s with faulted := true, faultCause := c, faultInfo := info }

/-- The effect `t` of an instruction that touches the `len` bytes from `I` up, if they all lie in memory, else
`MemOutOfRange(max(I, 0x1000))` before any access (R62, R193). Log 16. -/
def State.accessing (s : State) (len : Nat) (t : State) : State :=
  if fits s.i len then t else s.raise .memOutOfRange (firstOutside s.i)

/-! ### Random source, timers, fetch -/

/-- The next random byte (R172, R253). -/
def State.nextRandom (s : State) : Byte := Config.randByte s.env.draws

/-- One random byte has been drawn (R172, R253). -/
def State.drawn (s : State) : State := { s with env := { s.env with draws := s.env.draws + 1 } }

/-- A timer's count: down by one, stopping at 0 (R125). -/
def countDown (b : Byte) : Byte := if b = 0#8 then 0#8 else b - 1#8

/-- The timer tick: both timers count down, and `BEEP` is emitted if it finds `ST` = 1 (R125, R126). -/
def State.tick (s : State) : State :=
  { s with
    dt := countDown s.dt
    st := countDown s.st
    env := { s.env with beeps := if s.st = 1#8 then s.env.beeps + 1 else s.env.beeps } }

/-- The opcode at `PC`, whatever its parity (R63, R65, R123). Log 23. -/
def State.fetch (s : State) : Word := opcodeOf (s.mem.read s.pc.toNat) (s.mem.read (s.pc.toNat + 1))

/-! ### The rasterizer (44_display.md) -/

/-- XOR the sprite's remaining bytes into the framebuffer, one row each from sprite row `k` on; the flag says whether a
lit pixel was turned off, in this or an earlier row (R201, R203). -/
def blit (col : Nat) (vy : Byte) : List Byte → Nat → Framebuffer → Bool → Framebuffer × Bool
  | [], _, fb, erased => (fb, erased)
  | b :: bs, k, fb, erased =>
    let r := spriteRow vy k
    let mask := rowMask b col
    blit col vy bs (k + 1) (fb.set r (fb[r] ^^^ mask)) (erased || (fb[r] &&& mask) != 0#64)

/-! ### The wait for a key (60_exceptions.md R249) -/

/-- Running to WaitingForKey(x) (R222, R249). -/
def State.beginWait (s : State) (x : Index) : State := { s with waiting := true, waitTarget := x }

/-- WaitingForKey to Running, with the key's index delivered to the target register, and the target cleared (R248, R249).
Log 18. -/
def State.endWait (s : State) (k : Index) : State :=
  { s with v := s.v.set s.waitTarget (BitVec.ofNat 8 k.val), waitTarget := 0, waiting := false }

/-- The latch replaced by the new snapshot (R248). -/
def State.setKeys (s : State) (keys : Keys) : State := { s with keys := keys }

end Sys2Proof.Machine
end

