-- ==== Sys2Proof/Machine/ControlFlow.lean ====
section
/-! DEFINITION. Control-flow instructions (41_control_flow.md) and the unrecognized opcode (40_fetch_decode_cycle.md). -/

namespace Sys2Proof.Machine

/-- `JP nnn` (R140). -/
def execJp (nnn : Addr) (s : State) : Result := .next (s.setPc (zextAddr nnn))

/-- `CALL nnn` (R141): the fault is raised before anything is written. -/
def execCall (nnn : Addr) (s : State) : Result :=
  if h : s.sp.val < 16 then .next ((s.push (s.pc + 2#16) h).setPc (zextAddr nnn))
  else .next (s.raise .stackOverflow s.pc)

/-- `RET` (R142): with an empty stack nothing happens and `PC` stays. -/
def execRet (s : State) : Result := if h : 0 < s.sp.val then .next (s.pop h) else .next s

/-- `SE Vx, kk` (R144). -/
def execSeImm (x : Index) (kk : Byte) (s : State) : Result := .next (s.skipIf (s.readV x == kk))

/-- `SNE Vx, kk` (R145). -/
def execSneImm (x : Index) (kk : Byte) (s : State) : Result := .next (s.skipIf (s.readV x != kk))

/-- `SE Vx, Vy` (R146). -/
def execSeReg (x y : Index) (s : State) : Result := .next (s.skipIf (s.readV x == s.readV y))

/-- `SNE Vx, Vy` (R147). -/
def execSneReg (x y : Index) (s : State) : Result := .next (s.skipIf (s.readV x != s.readV y))

/-- `JP V0, nnn` (R148). Log 13. -/
def execJpV0 (nnn : Addr) (s : State) : Result := .next (s.setPc (zextAddr nnn + zextByte (s.readV 0)))

/-- An unrecognized opcode (R127): nothing, not even the `PC`, changes; the cycle still ticks. -/
def execUnrecognized (_op : Word) (s : State) : Result := .next s

end Sys2Proof.Machine
end

