-- ==== Sys2Proof/Machine/Display.lean ====
section
/-! DEFINITION. Display instructions (44_display.md). -/

namespace Sys2Proof.Machine

/-- `CLS` (R200). -/
def execCls (s : State) : Result := .next (s.setFb (Vector.replicate 32 0#64)).advance

/-- The framebuffer and the collision flag after `DRW Vx, Vy, n` (R201): coordinates and sprite bytes are read first. -/
def State.drawSprite (s : State) (x y : Index) (n : Fin 16) : Framebuffer × Bool :=
  blit (spriteColumn (s.readV x)) (s.readV y) (s.mem.readBytes s.i.toNat n.val) 0 s.fb false

/-- `DRW Vx, Vy, n` (R201): with n = 0 no access and no fault; VF is written once, last. -/
def execDrw (x y : Index) (n : Fin 16) (s : State) : Result :=
  let drawing := s.drawSprite x y n
  .next (s.accessing n.val ((s.setFb drawing.1).writeV flagReg (flagOf drawing.2)).advance)

end Sys2Proof.Machine
end

