-- ==== Sys2Proof/Machine/InputTimers.lean ====
section
/-! DEFINITION. Input and timer instructions (45_input_and_timers.md). -/

namespace Sys2Proof.Machine

/-- The key skips: the entry of the latch that `V[x]` names, or `KeyIndexOutOfRange(V[x])` (R220, R221). Log 15. -/
def State.skipOnKey (s : State) (x : Index) (held : Bool) : State :=
  if h : (s.readV x).toNat < 16 then s.skipIf (s.keys[(s.readV x).toNat] == held)
  else s.raise .keyIndexOutOfRange (zextByte (s.readV x))

/-- `SKP Vx` (R220). -/
def execSkp (x : Index) (s : State) : Result := .next (s.skipOnKey x true)

/-- `SKNP Vx` (R221). -/
def execSknp (x : Index) (s : State) : Result := .next (s.skipOnKey x false)

/-- `LD Vx, K` (R222): the wait begins; `V[x]` is written later, by `update_input`. -/
def execLdVxK (x : Index) (s : State) : Result := .next (s.beginWait x).advance

/-- `LD Vx, DT` (R223): the value before this cycle's tick. Log 13. -/
def execLdVxDt (x : Index) (s : State) : Result := .next (s.writeV x s.dt).advance

/-- `LD DT, Vx` (R224). Log 13. -/
def execLdDtVx (x : Index) (s : State) : Result := .next (s.setDt (s.readV x)).advance

/-- `LD ST, Vx` (R225). Log 13. -/
def execLdStVx (x : Index) (s : State) : Result := .next (s.setSt (s.readV x)).advance

end Sys2Proof.Machine
end

