-- ==== Sys2Proof/Machine/MemoryBlock.lean ====
section
/-! DEFINITION. Memory block transfer and BCD instructions (43_memory_block.md). `I` never changes, and the whole range is
checked before the first access (R193). -/

namespace Sys2Proof.Machine

/-- `LD B, Vx` (R190). -/
def execLdB (x : Index) (s : State) : Result :=
  .next (s.accessing 3 (s.setMem (s.mem.writeBytes s.i.toNat (bcdDigits (s.readV x)))).advance)

/-- `LD [I], Vx` (R191). -/
def execStoreRegs (x : Index) (s : State) : Result :=
  .next (s.accessing (x.val + 1) (s.setMem (s.mem.writeBytes s.i.toNat (s.regsThrough x))).advance)

/-- `LD Vx, [I]` (R192). -/
def execLoadRegs (x : Index) (s : State) : Result :=
  .next (s.accessing (x.val + 1) (s.loadThrough x).advance)

end Sys2Proof.Machine
end

