-- ==== Sys2Proof/Machine/RegisterAlu.lean ====
section
/-! DEFINITION. Register arithmetic, logic, random and address-register instructions (42_register_alu.md). Every one ends
with `PC <- P + 2` (R160). Where a flag and a result are written, they are written in the order the rule lists them, each
reading what the one before left (R176, log 11). -/

namespace Sys2Proof.Machine

/-- `LD Vx, kk` (R161). -/
def execLdImm (x : Index) (kk : Byte) (s : State) : Result := .next (s.writeV x kk).advance

/-- `ADD Vx, kk` (R162): no flag. -/
def execAddImm (x : Index) (kk : Byte) (s : State) : Result := .next (s.writeV x (s.readV x + kk)).advance

/-- `LD Vx, Vy` (R163). -/
def execLdReg (x y : Index) (s : State) : Result := .next (s.writeV x (s.readV y)).advance

/-- `OR Vx, Vy` (R164): no flag. -/
def execOrReg (x y : Index) (s : State) : Result := .next (s.writeV x (s.readV x ||| s.readV y)).advance

/-- `AND Vx, Vy` (R165): no flag. -/
def execAndReg (x y : Index) (s : State) : Result := .next (s.writeV x (s.readV x &&& s.readV y)).advance

/-- `XOR Vx, Vy` (R166): no flag. -/
def execXorReg (x y : Index) (s : State) : Result := .next (s.writeV x (s.readV x ^^^ s.readV y)).advance

/-- `ADD Vx, Vy` (R167): the result first, then VF <- 1 if the sum exceeded 255; otherwise VF is not written. Log 17. -/
def execAddReg (x y : Index) (s : State) : Result :=
  let s1 := s.writeV x (s.readV x + s.readV y)
  let s2 := if carries (s.readV x) (s.readV y) then s1.writeV flagReg 1#8 else s1
  .next s2.advance

/-- `SUB Vx, Vy` (R168): the flag first, then the result from the registers as the flag write left them. -/
def execSub (x y : Index) (s : State) : Result :=
  let s1 := s.writeV flagReg (greaterFlag (s.readV x) (s.readV y))
  .next (s1.writeV x (s1.readV x - s1.readV y)).advance

/-- `SUBN Vx, Vy` (R169): the flag first. -/
def execSubn (x y : Index) (s : State) : Result :=
  let s1 := s.writeV flagReg (greaterFlag (s.readV y) (s.readV x))
  .next (s1.writeV x (s1.readV y - s1.readV x)).advance

/-- `SHR Vx` (R170): the flag first. -/
def execShr (x : Index) (s : State) : Result :=
  let s1 := s.writeV flagReg (shrFlag (s.readV x))
  .next (s1.writeV x (s1.readV x >>> 1)).advance

/-- `SHL Vx` (R171): the flag first. -/
def execShl (x : Index) (s : State) : Result :=
  let s1 := s.writeV flagReg (shlFlag (s.readV x))
  .next (s1.writeV x (s1.readV x <<< 1)).advance

/-- `RND Vx, kk` (R172): a fresh random byte, masked. -/
def execRnd (x : Index) (kk : Byte) (s : State) : Result := .next (s.drawn.writeV x (s.nextRandom &&& kk)).advance

/-- `LD I, nnn` (R173). -/
def execLdI (nnn : Addr) (s : State) : Result := .next (s.setI (zextAddr nnn)).advance

/-- `ADD I, Vx` (R174): 16 bits wide, no flag; a sum above 0xFFFF faults. -/
def execAddI (x : Index) (s : State) : Result :=
  if addressOverflows s.i (s.readV x) then .next (s.raise .addressRegisterOverflow s.i)
  else .next (s.setI (s.i + zextByte (s.readV x))).advance

/-- `LD F, Vx` (R175). -/
def execLdF (x : Index) (s : State) : Result := .next (s.setI (glyphAddress (s.readV x))).advance

end Sys2Proof.Machine
end

