-- ==== Sys2Proof/Machine/Cycle.lean ====
section
/-! DEFINITION. The `cycle` transaction: gates, fetch, dispatch, timer tick (40_fetch_decode_cycle.md R120 to R128). -/

namespace Sys2Proof.Machine

/-- What follows a handler: the timer tick, unless the handler raised a fault (R125, R128). -/
def State.finish (s : State) : State := if s.faulted then s else s.tick

/-- `cycle` (R120): nothing while faulted (R121) or waiting (R122); a fetch out of range faults (R123); else the
instruction at `PC` runs and the timers tick. -/
def cycle (s : State) : Result :=
  if s.faulted then .next s
  else if s.waiting then .next s
  else if Config.lastFetchAddress < s.pc.toNat then .next (s.raise .fetchOutOfRange s.pc)
  else
    match exec (decode s.fetch) s with
    | .next t => .next t.finish
    | .fault r => .fault r
    | .refused r => .refused r

end Sys2Proof.Machine
end

