-- ==== Sys2Proof/Machine/Transactions.lean ====
section
/-! DEFINITION. The host's transactions (00_scope.md R4): `reset`, `init`, `load`, `update_input`, `cycle`, `display`. -/

namespace Sys2Proof.Machine

/-- The bytes of glyph 0 (70_reset_and_hazards.md R281). -/
def glyphZero : List Byte := [0xF0, 0x90, 0x90, 0x90, 0xF0]

/-- The default of the parameter FONT_ROM, rows 1..F (R281, GK4). Log 9. -/
def standardGlyphs : Vector Byte 75 :=
  #v[0x20, 0x60, 0x20, 0x20, 0x70, 0xF0, 0x10, 0xF0, 0x80, 0xF0, 0xF0, 0x10, 0xF0, 0x10, 0xF0,
     0x90, 0x90, 0xF0, 0x10, 0x10, 0xF0, 0x80, 0xF0, 0x10, 0xF0, 0xF0, 0x80, 0xF0, 0x90, 0xF0,
     0xF0, 0x10, 0x20, 0x40, 0x40, 0xF0, 0x90, 0xF0, 0x90, 0xF0, 0xF0, 0x90, 0xF0, 0x10, 0xF0,
     0xF0, 0x90, 0xF0, 0x90, 0x90, 0xE0, 0x90, 0xE0, 0x90, 0xE0, 0xF0, 0x80, 0x80, 0x80, 0xF0,
     0xE0, 0x90, 0x90, 0x90, 0xE0, 0xF0, 0x80, 0xF0, 0x80, 0xF0, 0xF0, 0x80, 0xF0, 0x80, 0x80]

/-- The 80 bytes of the font, glyph d at 5 * d (R281). -/
def fontBytes (glyphs : Vector Byte 75) : List Byte := glyphZero ++ glyphs.toList

/-- `init()` with the given glyphs 1..F: the font is installed, nothing else (R281). -/
def State.initWith (glyphs : Vector Byte 75) (s : State) : State :=
  if s.faulted then s else s.setMem (s.mem.writeBytes Config.fontBase (fontBytes glyphs))

/-- `init()` (R281). -/
def State.init (s : State) : State := s.initWith standardGlyphs

/-- `FAULT_INFO` of a program that is too large: min(length, 0xFFFF) (R241, R282). -/
def loadInfo (len : Nat) : Word := BitVec.ofNat 16 (min len 0xFFFF)

/-- `load(bytes)` (R282): the program is copied to 0x200, or `LoadTooLarge`. -/
def State.load (s : State) (bytes : List Byte) : State :=
  if s.faulted then s
  else if Config.maxProgramBytes < bytes.length then s.raise .loadTooLarge (loadInfo bytes.length)
  else s.setMem (s.mem.writeBytes Config.programBase bytes)

/-- A pending wait meets the rising keys (R248, R249): the first pair of cases leaves the wait as it is. -/
def State.resolveWait (s : State) (rising : List Index) : State :=
  match rising with
  | [] => s
  | k :: ks => if s.waiting then s.endWait (selectKey k ks) else s

/-- `update_input(new_state)` (R248): a rising edge ends a pending wait; the latch is replaced in any case. -/
def State.updateInput (s : State) (keys : Keys) : State :=
  if s.faulted then s else (s.resolveWait (risingKeys s.keys keys)).setKeys keys

/-- `display` (R251): the framebuffer, read only. -/
def State.display (s : State) : Framebuffer := s.fb

/-- `reset` as a transaction (R280, D18): the reset state again. The other agents keep their records, and the host's
contract starts anew. Log 8. -/
def State.restart (s : State) : State :=
  { State.reset with env := { s.env with inited := false, loaded := false, cycled := false } }

/-- The host has issued `init`. Log 7. -/
def State.noteInit (s : State) : State := { s with env := { s.env with inited := true } }

/-- The host has issued `load`. Log 7. -/
def State.noteLoad (s : State) : State := { s with env := { s.env with loaded := true } }

/-- The host has issued `cycle`. Log 7. -/
def State.noteCycle (s : State) : State := { s with env := { s.env with cycled := true } }

/-- The host has received the picture. Log 6. -/
def State.noteDisplay (s : State) : State := { s with env := { s.env with frame := some s.display } }

/-- Perform one transaction (R4). `init` and `load` outside the host contract (R284) are refused by name (U20). Log 7. -/
def transact (t : Transaction) (s : State) : Result :=
  match t with
  | .reset => .next s.restart
  | .init => if s.env.inited || s.env.cycled then .refused .outsideHostContract else .next s.init.noteInit
  | .load bytes =>
    if s.env.loaded || s.env.cycled then .refused .outsideHostContract else .next (s.load bytes).noteLoad
  | .updateInput keys => .next (s.updateInput keys)
  | .cycle => cycle s.noteCycle
  | .display => .next s.noteDisplay

/-- What the host issues next: the head of its script, or `cycle` when the script is empty. Log 4. -/
def State.nextTransaction (s : State) : Transaction := s.env.script.headD .cycle

/-- That transaction has been taken from the script. Log 4. -/
def State.taken (s : State) : State := { s with env := { s.env with script := s.env.script.tail } }

/-- A state whose next step fetches: no transaction before the next `cycle`, not faulted, not waiting, `PC` in range; all
else as in `s`. Log 21. -/
def State.openFetch (s : State) : State :=
  { s with
    pc := if Config.lastFetchAddress < s.pc.toNat then BitVec.ofNat 16 Config.programBase else s.pc
    waiting := false
    waitTarget := 0
    faulted := false
    faultCause := .noFault
    faultInfo := 0#16
    env := { s.env with script := [] } }

/-- The opcode stored at `PC`, high byte first (R63). -/
def State.storeAtPc (s : State) (op : Word) : State :=
  s.setMem (s.mem.writeBytes s.pc.toNat [highByte op, lowByte op])

end Sys2Proof.Machine
end

