-- ==== Sys2Proof/Machine/Step.lean ====
section
/-! DEFINITION. One step: the host's next transaction is performed (00_scope.md R4); with nothing scripted it is `cycle`. -/

namespace Sys2Proof.Machine

/-- One step of the machine (R4, log 4). -/
def step (s : State) : Host.Outcome State Fault Refusal := transact s.nextTransaction s.taken

/-- `s` with the opcode `w` stored where the next step fetches it. Logs 20, 21. -/
def State.withFetchWord (s : State) (nbits w : Nat) : State := s.openFetch.storeAtPc (tableOpcode nbits w)

end Sys2Proof.Machine
end

