-- ==== Sys2Proof/Safety.lean ====
section
/-! DEFINITION. The terms claims are stated in: what a safe run is, frames, the invariant, the fault table and the
program-counter table, each written from its rule and not from the meanings. -/

namespace Sys2Proof.Machine

/-- A safe state: no fault is latched (60_exceptions.md R243). -/
def State.safe (s : State) : Bool := !s.faulted

/-- A state in which `cycle` executes: neither faulted (R121) nor waiting (R122). -/
abbrev State.running (s : State) : Prop := s.faulted = false ∧ s.waiting = false

/-- The parts of the state a frame speaks of; `fault` is the whole latch, `env` the record of the other agents. -/
inductive Part where
  | mem | v | i | pc | stack | sp | dt | st | fb | keys | waiting | waitTarget | fault | env
deriving DecidableEq, Repr

/-- One part is the same in `t` as in `s`; for memory, every address reads as before. -/
def Unchanged (s t : State) : Part → Prop
  | .mem => ∀ a, t.mem.read a = s.mem.read a
  | .v => ∀ r : Index, t.v[r] = s.v[r]
  | .i => t.i = s.i
  | .pc => t.pc = s.pc
  | .stack => ∀ j : Index, t.stack[j] = s.stack[j]
  | .sp => t.sp = s.sp
  | .dt => t.dt = s.dt
  | .st => t.st = s.st
  | .fb => ∀ r : Fin 32, t.fb[r] = s.fb[r]
  | .keys => ∀ k : Index, t.keys[k] = s.keys[k]
  | .waiting => t.waiting = s.waiting
  | .waitTarget => t.waitTarget = s.waitTarget
  | .fault => t.faulted = s.faulted ∧ t.faultCause = s.faultCause ∧ t.faultInfo = s.faultInfo
  | .env => t.env = s.env

/-- Every part but the listed ones is the same in `t` as in `s`. -/
def FrameExcept (parts : List Part) (s t : State) : Prop := ∀ p, p ∉ parts → Unchanged s t p

/-- The fault latch holds this cause and this information (R242). -/
def Latched (t : State) (c : FaultCause) (info : Nat) : Prop :=
  t.faulted = true ∧ t.faultCause = c ∧ t.faultInfo.toNat = info

/-- The fault an instruction raises in a state, with its `FAULT_INFO` (the table of 60_exceptions.md R241). -/
def faultOf (i : Instr) (s : State) : Option (FaultCause × Nat) :=
  match i with
  | .call _ => if s.sp.val = 16 then some (.stackOverflow, s.pc.toNat) else none
  | .addI x => if 0xFFFF < s.i.toNat + s.v[x].toNat then some (.addressRegisterOverflow, s.i.toNat) else none
  | .drw _ _ n =>
    if 0 < n.val ∧ 0xFFF < s.i.toNat + n.val - 1 then some (.memOutOfRange, max s.i.toNat 0x1000) else none
  | .ldB _ => if 0xFFF < s.i.toNat + 2 then some (.memOutOfRange, max s.i.toNat 0x1000) else none
  | .storeRegs x => if 0xFFF < s.i.toNat + x.val then some (.memOutOfRange, max s.i.toNat 0x1000) else none
  | .loadRegs x => if 0xFFF < s.i.toNat + x.val then some (.memOutOfRange, max s.i.toNat 0x1000) else none
  | .skp x => if 15 < s.v[x].toNat then some (.keyIndexOutOfRange, s.v[x].toNat) else none
  | .sknp x => if 15 < s.v[x].toNat then some (.keyIndexOutOfRange, s.v[x].toNat) else none
  | .cls | .ret | .jp _ | .seImm _ _ | .sneImm _ _ | .seReg _ _ | .ldImm _ _ | .addImm _ _ | .ldReg _ _ | .orReg _ _
  | .andReg _ _ | .xorReg _ _ | .addReg _ _ | .sub _ _ | .shr _ | .subn _ _ | .shl _ | .sneReg _ _ | .ldI _ | .jpV0 _
  | .rnd _ _ | .ldVxDt _ | .ldVxK _ | .ldDtVx _ | .ldStVx _ | .ldF _ | .unrecognized _ => none

/-- The fault a cycle of a running machine raises: the fetch check comes first (R244). -/
def cycleFault (s : State) : Option (FaultCause × Nat) :=
  if 0xFFE < s.pc.toNat then some (.fetchOutOfRange, s.pc.toNat) else faultOf (decode s.fetch) s

/-- The latch `KEYS[k]` is true for the key a byte names, when it names one. -/
def keyHeld (s : State) (b : Byte) : Bool := s.keys.toList.getD b.toNat false

/-- Where an instruction that raises no fault leaves `PC` (the table of 40_fetch_decode_cycle.md R129), as a number. -/
def pcAfter (i : Instr) (s : State) : Nat :=
  match i with
  | .ret => if 0 < s.sp.val then (s.stack.toList.getD (s.sp.val - 1) 0#16).toNat else s.pc.toNat
  | .jp nnn | .call nnn => nnn.toNat
  | .jpV0 nnn => nnn.toNat + s.v[(0 : Index)].toNat
  | .seImm x kk => if s.v[x] = kk then s.pc.toNat + 4 else s.pc.toNat + 2
  | .sneImm x kk => if s.v[x] = kk then s.pc.toNat + 2 else s.pc.toNat + 4
  | .seReg x y => if s.v[x] = s.v[y] then s.pc.toNat + 4 else s.pc.toNat + 2
  | .sneReg x y => if s.v[x] = s.v[y] then s.pc.toNat + 2 else s.pc.toNat + 4
  | .skp x => if keyHeld s s.v[x] then s.pc.toNat + 4 else s.pc.toNat + 2
  | .sknp x => if keyHeld s s.v[x] then s.pc.toNat + 2 else s.pc.toNat + 4
  | .unrecognized _ => s.pc.toNat
  | .cls | .ldImm _ _ | .addImm _ _ | .ldReg _ _ | .orReg _ _ | .andReg _ _ | .xorReg _ _ | .addReg _ _ | .sub _ _
  | .shr _ | .subn _ _ | .shl _ | .ldI _ | .rnd _ _ | .drw _ _ _ | .ldVxDt _ | .ldVxK _ | .ldDtVx _ | .ldStVx _
  | .addI _ | .ldF _ | .ldB _ | .storeRegs _ | .loadRegs _ => s.pc.toNat + 2

/-- The parts an instruction may write (10_state.md R22 to R30; 20_memory.md R71; 42_register_alu.md R160); `fault` where
R241 lists it as raising one. -/
def mayWrite : Instr → List Part
  | .cls => [.fb, .pc]
  | .ret => [.pc, .sp, .stack]
  | .jp _ | .jpV0 _ | .seImm _ _ | .sneImm _ _ | .seReg _ _ | .sneReg _ _ => [.pc]
  | .call _ => [.pc, .sp, .stack, .fault]
  | .ldImm _ _ | .addImm _ _ | .ldReg _ _ | .orReg _ _ | .andReg _ _ | .xorReg _ _ | .addReg _ _ | .sub _ _ | .shr _
  | .subn _ _ | .shl _ | .ldVxDt _ => [.v, .pc]
  | .rnd _ _ => [.v, .pc, .env]
  | .ldI _ | .ldF _ => [.i, .pc]
  | .addI _ => [.i, .pc, .fault]
  | .drw _ _ _ => [.fb, .v, .pc, .fault]
  | .skp _ | .sknp _ => [.pc, .fault]
  | .ldVxK _ => [.waiting, .waitTarget, .pc]
  | .ldDtVx _ => [.dt, .pc]
  | .ldStVx _ => [.st, .pc]
  | .ldB _ | .storeRegs _ => [.mem, .pc, .fault]
  | .loadRegs _ => [.v, .pc, .fault]
  | .unrecognized _ => []

/-- The complete list of ignored bits of 30_encoding.md R99. -/
def ignoredBits : Instr → Word
  | .cls | .ret => 0x0F00#16
  | .seReg _ _ | .sneReg _ _ => 0x000F#16
  | .shr _ | .shl _ => 0x00F0#16
  | .jp _ | .call _ | .seImm _ _ | .sneImm _ _ | .ldImm _ _ | .addImm _ _ | .ldReg _ _ | .orReg _ _ | .andReg _ _
  | .xorReg _ _ | .addReg _ _ | .sub _ _ | .subn _ _ | .ldI _ | .jpV0 _ | .rnd _ _ | .drw _ _ _ | .skp _ | .sknp _
  | .ldVxDt _ | .ldVxK _ | .ldDtVx _ | .ldStVx _ | .addI _ | .ldF _ | .ldB _ | .storeRegs _ | .loadRegs _
  | .unrecognized _ => 0#16

/-- The state in which the handler runs: the host's `cycle` has been taken from its script and noted; nothing of the
machine itself is changed (logs 4 and 7). -/
def begun (s : State) : State :=
  { s with env := { s.env with script := s.env.script.tail, cycled := true } }

/-- The host's next transaction is `cycle` (log 4). -/
abbrev hostCycles (s : State) : Prop := s.env.script = [] ∨ s.env.script.head? = some .cycle

/-- The source bytes of a sprite of `n` rows lie in memory (44_display.md R201). -/
abbrev spriteInMemory (s : State) (n : Fin 16) : Prop := n.val = 0 ∨ s.i.toNat + n.val - 1 ≤ 0xFFF

/-- Sprite row `k` meets a lit pixel of the framebuffer (44_display.md R203). -/
abbrev collides (s : State) (x y : Index) (k : Nat) : Prop :=
  s.fb[(s.v[y].toNat + k) % 32]'(Nat.mod_lt _ (by decide)) &&& rowMask (s.mem.read (s.i.toNat + k)) (s.v[x].toNat % 64)
    ≠ 0#64

/-- What the latch holds is a row of R241: the fault table, read on the faulted state itself, still gives the latched cause
and `FAULT_INFO`, since a fault changes nothing else (R242) and nothing runs after it (R243). `load`'s own fault leaves no
trace of the program but its length. -/
def latchMeaning (s : State) : Bool :=
  match s.faultCause with
  | .noFault => !s.faulted && s.faultInfo == 0#16
  | .loadTooLarge => s.faulted && decide (Config.maxProgramBytes < s.faultInfo.toNat)
  | .fetchOutOfRange | .memOutOfRange | .stackOverflow | .addressRegisterOverflow | .keyIndexOutOfRange =>
    s.faulted && decide (cycleFault s = some (s.faultCause, s.faultInfo.toNat))

/-- The invariant of the machine: memory in its canonical form within 0x000..0xFFF (R31); `PC` at most 0x10FE (R24); the
live stack slots hold return addresses 0x0002..0x1000 (R142) and the others are zero (R25); `WAIT_TARGET` is 0 unless
waiting (R29); the fault latch is one of R241's rows, and its condition holds in this state. -/
abbrev State.Inv (s : State) : Prop :=
  s.mem.wf = true ∧
  s.pc.toNat ≤ 0x10FE ∧
  (∀ j : Index, j.val < s.sp.val → 2 ≤ s.stack[j].toNat ∧ s.stack[j].toNat ≤ 0x1000) ∧
  (∀ j : Index, s.sp.val ≤ j.val → s.stack[j] = 0#16) ∧
  (s.waiting = false → s.waitTarget = 0) ∧
  latchMeaning s = true

/-- The three stalls of 60_exceptions.md R257: the instruction at `PC` leaves `PC` as it is. -/
def State.stalled (s : State) : Bool :=
  match decode s.fetch with
  | .unrecognized _ => true
  | .ret => s.sp.val == 0
  | .jp nnn => nnn.toNat == s.pc.toNat
  | .jpV0 nnn => nnn.toNat + s.v[(0 : Index)].toNat == s.pc.toNat
  | .cls | .call _ | .seImm _ _ | .sneImm _ _ | .seReg _ _ | .ldImm _ _ | .addImm _ _ | .ldReg _ _ | .orReg _ _
  | .andReg _ _ | .xorReg _ _ | .addReg _ _ | .sub _ _ | .shr _ | .subn _ _ | .shl _ | .sneReg _ _ | .ldI _ | .rnd _ _
  | .drw _ _ _ | .skp _ | .sknp _ | .ldVxDt _ | .ldVxK _ | .ldDtVx _ | .ldStVx _ | .addI _ | .ldF _ | .ldB _
  | .storeRegs _ | .loadRegs _ => false

/-- The spec's convention for a successful end of a run (70_reset_and_hazards.md R285): not faulted, not waiting, and at a
`JP` to its own address. Log 19. -/
def State.endedWell (s : State) : Bool :=
  !s.faulted && !s.waiting && decide (s.pc.toNat ≤ 0xFFE) && decide (decode s.fetch = .jp (s.pc.setWidth 12)) &&
    decide (s.pc.toNat < 0x1000)

end Sys2Proof.Machine
end

