-- ==== Sys2Proof/Certificates/Slice0/Obligations.lean ====
section
/-! DEFINITION. The statements for the provers. A result statement says how the instruction is encoded, that `exec`
answers a next state, what that state holds, and that everything else is as before. -/

open Sys2Proof Sys2Proof.Machine

/-! ### Encoding -/

/-- 30_encoding.md R90 to R98: decoding the opcode of a well-formed instruction gives the instruction back, with every
operand at every value. -/
def Obligations.DecodeOfEncodeIsIdentity : Prop :=
  ∀ i : Instr, i.wf = true → decode (encode i) = i

/-- 30_encoding.md R103: an opcode matches a row of the table exactly when the decoder reads that row's instruction (so no
opcode matches two rows), and the default row is left for the opcodes that match none. -/
def Obligations.DecoderFollowsOpcodeTable : Prop :=
  opcodeTable.length = 34 ∧
  (∀ (op : Word) (k : Fin 34),
    op &&& (opcodeTable.getD k.val (0#16, 0#16)).2 = (opcodeTable.getD k.val (0#16, 0#16)).1 ↔
      (decode op).tableRow = k.val) ∧
  (∀ op : Word, (decode op).tableRow = 34 ↔ decode op = .unrecognized op)

/-- 30_encoding.md R99, decision D8: encoding what an opcode decodes to gives the opcode again, with the ignored bits, and
only those, zero: no other bit is dropped. -/
def Obligations.EncodeOfDecodeKeepsSignificantBits : Prop :=
  ∀ op : Word, encode (decode op) = op &&& ~~~ (ignoredBits (decode op))

/-- 30_encoding.md R100: the unrecognized opcodes are exactly the listed ones, and decode to themselves. -/
def Obligations.UnrecognizedOpcodesAreTheListedOnes : Prop :=
  ∀ (g x y n : BitVec 4),
    decode (g ++ x ++ y ++ n) = .unrecognized (g ++ x ++ y ++ n) ↔
      (g = 0x0#4 ∧ ¬ (y ++ n = 0xE0#8 ∨ y ++ n = 0xEE#8)) ∨
      (g = 0x8#4 ∧ (n = 0x8#4 ∨ n = 0x9#4 ∨ n = 0xA#4 ∨ n = 0xB#4 ∨ n = 0xC#4 ∨ n = 0xD#4 ∨ n = 0xF#4)) ∨
      (g = 0xE#4 ∧ ¬ (y ++ n = 0x9E#8 ∨ y ++ n = 0xA1#8)) ∨
      (g = 0xF#4 ∧ ¬ (y ++ n = 0x07#8 ∨ y ++ n = 0x0A#8 ∨ y ++ n = 0x15#8 ∨ y ++ n = 0x18#8 ∨ y ++ n = 0x1E#8 ∨
        y ++ n = 0x29#8 ∨ y ++ n = 0x33#8 ∨ y ++ n = 0x55#8 ∨ y ++ n = 0x65#8))

/-- Words written out from the encodings of 30_encoding.md R94 decode to the instructions they stand for. -/
def Obligations.WrittenOutWordsDecode : Prop :=
  decodeBytes [0x60#8, 0x0A#8] = .ok (.ldImm 0 0x0A#8, []) ∧
  decodeBytes [0x70#8, 0x05#8] = .ok (.addImm 0 0x05#8, []) ∧
  decodeBytes [0x22#8, 0x08#8] = .ok (.call 0x208#12, []) ∧
  decodeBytes [0xF0#8, 0x33#8] = .ok (.ldB 0, []) ∧
  decodeBytes [0xD0#8, 0x13#8] = .ok (.drw 0 1 3, []) ∧
  decodeBytes [0xE4#8, 0x9E#8] = .ok (.skp 4, [])

/-! ### The cycle -/

/-- 40_fetch_decode_cycle.md R120, R123, R124: when the two bytes at `PC` decode to `i`, a step runs the handler of `i`,
and then the timer tick unless the handler faulted (R128). -/
def Obligations.StepRunsTheDecodedInstruction : Prop :=
  ∀ (s : State) (i : Instr), s.running → hostCycles s → s.pc.toNat ≤ 0xFFE →
    decodeBytes [s.mem.read s.pc.toNat, s.mem.read (s.pc.toNat + 1)] = .ok (i, []) →
    ∃ t, exec i (begun s) = .next t ∧ step s = .next (if t.faulted then t else t.tick)

/-- A word stored by `withFetchWord` is the instruction the very next step runs, from any state with a canonical memory. -/
def Obligations.FetchWordIsRunNext : Prop :=
  ∀ (s : State) (op : Word), s.mem.wf = true →
    ∃ t, exec (decode op) (begun (s.withFetchWord 16 op.toNat)) = .next t ∧
      step (s.withFetchWord 16 op.toNat) = .next (if t.faulted then t else t.tick)

/-- 40_fetch_decode_cycle.md R121 (D1), R122 (D6): a cycle of a faulted or of a waiting machine changes nothing. -/
def Obligations.GatedCycleChangesNothing : Prop :=
  ∀ s : State, s.faulted = true ∨ s.waiting = true → cycle s = .next s

/-- 40_fetch_decode_cycle.md R125, R126: the tick that follows an executed instruction takes each timer down by one, to 0
at the lowest, emits `BEEP` exactly when it finds `ST` = 1, and changes nothing else. -/
def Obligations.TickFollowsEveryExecutedInstruction : Prop :=
  ∀ s t : State, s.running → s.pc.toNat ≤ 0xFFE → exec (decode s.fetch) s = .next t → t.faulted = false →
    ∃ u, cycle s = .next u ∧
      u.dt.toNat = t.dt.toNat - 1 ∧ u.st.toNat = t.st.toNat - 1 ∧
      u.env = { t.env with beeps := t.env.beeps + (if t.st = 1#8 then 1 else 0) } ∧
      FrameExcept [.dt, .st, .env] t u

/-- 60_exceptions.md R241, R242, R244 (D1, D2, D3, D11): a cycle of a running machine faults exactly when the table says
so, with the table's cause and information, and then nothing but the latch changes, not even a timer. -/
def Obligations.CycleFaultsExactlyAsTabled : Prop :=
  ∀ s : State, s.running → ∃ t, cycle s = .next t ∧
    match cycleFault s with
    | some (c, info) => Latched t c info ∧ FrameExcept [.fault] s t
    | none => t.faulted = false ∧ t.faultCause = s.faultCause ∧ t.faultInfo = s.faultInfo

/-- 60_exceptions.md R243 (D1): a faulted machine stays as it is under every transaction but `reset`; `display` still
answers the framebuffer. Only the record of the other agents moves on. -/
def Obligations.FaultIsTerminal : Prop :=
  ∀ (s u : State) (tr : Transaction), s.faulted = true → tr ≠ .reset → transact tr s = .next u →
    FrameExcept [.env] s u ∧ (tr = .display → u.env.frame = some s.fb)

/-- 70_reset_and_hazards.md R280 (D18): `reset` gives the reset state from any state, a faulted one too; what the model
keeps of the other agents is its own choice (log 8). -/
def Obligations.ResetGivesTheResetState : Prop :=
  ∀ s : State, ∃ u, transact .reset s = .next u ∧ FrameExcept [.env] State.reset u ∧ u.faulted = false ∧
    u.env = { s.env with inited := false, loaded := false, cycled := false }

/-- 40_fetch_decode_cycle.md R129 (with D1, D5, D9): where every instruction leaves `PC`; one that faults leaves it. -/
def Obligations.ProgramCounterFollowsTheTable : Prop :=
  ∀ (i : Instr) (s t : State), s.running → s.pc.toNat ≤ 0xFFE → exec i s = .next t →
    t.pc.toNat = if t.faulted then s.pc.toNat else pcAfter i s

/-- 10_state.md R22 to R30, 20_memory.md R71, 42_register_alu.md R160: no instruction writes any part of the state but the
ones its rule names. -/
def Obligations.InstructionsWriteOnlyTheirParts : Prop :=
  ∀ (i : Instr) (s t : State), exec i s = .next t → FrameExcept (mayWrite i) s t

/-- 30_encoding.md R100, 60_exceptions.md R240: every instruction answers a next state in every state; a step answers a
next state too, unless the host issues `init` or `load` outside its contract (the model's choice, log 7). -/
def Obligations.EveryInstructionAndStepAnswersNext : Prop :=
  (∀ (i : Instr) (s : State), ∃ t, exec i s = .next t) ∧
  (∀ s : State, (∃ t, step s = .next t) ∨
    (step s = .refused .outsideHostContract ∧
      ((s.nextTransaction = .init ∧ (s.env.inited = true ∨ s.env.cycled = true)) ∨
       ∃ bytes, s.nextTransaction = .load bytes ∧ (s.env.loaded = true ∨ s.env.cycled = true))))

/-! ### Reset and invariant -/

/-- 10_state.md R33: every element after reset (the fault latch by D1). -/
def Obligations.ResetValues : Prop :=
  (∀ a, State.reset.mem.read a = 0#8) ∧ (∀ r : Index, State.reset.v[r] = 0#8) ∧ State.reset.i = 0#16 ∧
  State.reset.pc = 0x200#16 ∧ (∀ j : Index, State.reset.stack[j] = 0#16) ∧ State.reset.sp = 0 ∧
  State.reset.dt = 0#8 ∧ State.reset.st = 0#8 ∧ (∀ r : Fin 32, State.reset.fb[r] = 0#64) ∧
  (∀ k : Index, State.reset.keys[k] = false) ∧ State.reset.waiting = false ∧ State.reset.waitTarget = 0 ∧
  State.reset.faulted = false ∧ State.reset.faultCause.code = 0#3 ∧ State.reset.faultInfo = 0#16

/-- The invariant holds at reset. -/
def Obligations.ResetMeetsTheInvariant : Prop := State.reset.Inv

/-- 10_state.md R24, R25, R29, R31, 41_control_flow.md R142, 60_exceptions.md R241: every step keeps the invariant, from
every state that meets it. For the fault latch (D1) it says that the fault table, read on the faulted state itself, still
gives the latched cause and `FAULT_INFO`: the last byte of the access of the instruction at `PC` lies above 0xFFF, its
address sum is above 0xFFFF, its V[x] is `FAULT_INFO` and above 15, and so on. -/
def Obligations.EveryStepKeepsTheInvariant : Prop :=
  ∀ s t : State, s.Inv → step s = .next t → t.Inv

/-! ### Whole-machine rules -/

/-- 60_exceptions.md R257, 70_reset_and_hazards.md R288: a stalled machine never resumes: over any number of cycles only
the timers run down, and `BEEP` is emitted once if `ST` gets from 1 to 0. -/
def Obligations.StalledMachineOnlyRunsItsTimersDown : Prop :=
  ∀ (n : Nat) (s : State), s.running → s.env.script = [] → s.pc.toNat ≤ 0xFFE → s.stalled = true →
    ∃ t, Host.Core.run Sys2Proof.core n s = .next t ∧
      t.dt.toNat = s.dt.toNat - n ∧ t.st.toNat = s.st.toNat - n ∧
      t.env.beeps = s.env.beeps + (if 1 ≤ s.st.toNat ∧ s.st.toNat ≤ n then 1 else 0) ∧
      FrameExcept [.dt, .st, .env] s t

/-- 60_exceptions.md R249: over any number of cycles a waiting machine stays exactly as it is. -/
def Obligations.WaitingMachineStaysAsItIs : Prop :=
  ∀ (n : Nat) (s : State), s.waiting = true → s.env.script = [] →
    ∃ t, Host.Core.run Sys2Proof.core n s = .next t ∧ FrameExcept [.env] s t ∧ t.env.beeps = s.env.beeps

/-- 60_exceptions.md R249: a wait ends by a rising key edge in `update_input` (or by `reset`) and by nothing else. -/
def Obligations.OnlyRisingKeyEndsTheWait : Prop :=
  ∀ (s t : State) (tr : Transaction), s.faulted = false → s.waiting = true → transact tr s = .next t →
    (t.waiting = false ↔
      tr = .reset ∨ ∃ keys, tr = .updateInput keys ∧ ∃ k : Index, s.keys[k] = false ∧ keys[k] = true)

/-- 10_state.md R26, R35: no instruction reads `ST`: with another value in it, an instruction does the same. -/
def Obligations.NoInstructionReadsTheSoundTimer : Prop :=
  ∀ (i : Instr) (b : Byte) (s t : State), exec i s = .next t →
    exec i (s.setSt b) = .next (match i with | .ldStVx _ => t | _ => t.setSt b)

/-- 42_register_alu.md R172, 60_exceptions.md R253 (D13): nothing but `RND` depends on the random source. -/
def Obligations.OnlyRndDependsOnTheRandomSource : Prop :=
  ∀ (i : Instr) (d : Nat) (s t : State), (∀ x kk, i ≠ .rnd x kk) → exec i s = .next t →
    exec i { s with env := { s.env with draws := d } } = .next { t with env := { t.env with draws := d } }

/-! ### Control flow -/

/-- 41_control_flow.md R140, for any target, odd or below 0x200 too (that the next fetch may then fault is
`CycleFaultsExactlyAsTabled`). -/
def Obligations.JumpGoesToItsAddress : Prop :=
  ∀ (nnn : Addr) (s : State),
    decode (0x1#4 ++ nnn) = .jp nnn ∧
    ∃ t, exec (.jp nnn) s = .next t ∧ t.pc.toNat = nnn.toNat ∧ FrameExcept [.pc] s t

/-- 41_control_flow.md R141 (overflow by D3). -/
def Obligations.CallPushesTheReturnAddress : Prop :=
  ∀ (nnn : Addr) (s : State),
    decode (0x2#4 ++ nnn) = .call nnn ∧
    (∀ j : Index, s.sp.val = j.val → ∃ t, exec (.call nnn) s = .next t ∧
      t.stack[j] = s.pc + 2#16 ∧ t.sp.val = j.val + 1 ∧ t.pc.toNat = nnn.toNat ∧
      (∀ j' : Index, j' ≠ j → t.stack[j'] = s.stack[j']) ∧ FrameExcept [.pc, .sp, .stack] s t) ∧
    (s.sp.val = 16 → ∃ t, exec (.call nnn) s = .next t ∧ Latched t .stackOverflow s.pc.toNat ∧ FrameExcept [.fault] s t)

/-- 41_control_flow.md R142, for every value of the ignored digit (D8, log 12): an empty stack stalls. -/
def Obligations.ReturnPopsOrStalls : Prop :=
  ∀ (d : BitVec 4) (s : State),
    decode (0x0#4 ++ d ++ 0xEE#8) = .ret ∧
    (∀ j : Index, s.sp.val = j.val + 1 → ∃ t, exec .ret s = .next t ∧
      t.sp.val = j.val ∧ t.pc = s.stack[j] ∧ t.stack[j] = 0#16 ∧
      (∀ j' : Index, j' ≠ j → t.stack[j'] = s.stack[j']) ∧ FrameExcept [.pc, .sp, .stack] s t) ∧
    (s.sp.val = 0 → ∃ t, exec .ret s = .next t ∧ FrameExcept [] s t)

/-- 41_control_flow.md R149: a `CALL`, then, after anything that leaves the stack alone, a `RET`. -/
def Obligations.ReturnAfterCallComesBack : Prop :=
  ∀ (nnn : Addr) (s : State) (j : Index), s.sp.val = j.val →
    ∃ t, exec (.call nnn) s = .next t ∧
      ∀ u : State, u.sp = t.sp → u.stack = t.stack →
        ∃ w, exec .ret u = .next w ∧ w.pc = s.pc + 2#16 ∧ w.sp = s.sp ∧ w.stack[j] = 0#16 ∧
          ∀ j' : Index, j' ≠ j → w.stack[j'] = s.stack[j']

/-- 41_control_flow.md R144, R145: the skips on an immediate, which compare all 8 bits. (The digits of the encodings are
those the rules give; the spec takes them from general knowledge, GK1, log 10.) -/
def Obligations.ImmediateSkipsMoveByFourOrTwo : Prop :=
  ∀ (x : Index) (kk : Byte) (s : State),
    (decode (0x3#4 ++ indexField x ++ kk) = .seImm x kk ∧
      ∃ t, exec (.seImm x kk) s = .next t ∧ FrameExcept [.pc] s t ∧
        t.pc = (if s.v[x].toNat = kk.toNat then s.pc + 4#16 else s.pc + 2#16)) ∧
    (decode (0x4#4 ++ indexField x ++ kk) = .sneImm x kk ∧
      ∃ t, exec (.sneImm x kk) s = .next t ∧ FrameExcept [.pc] s t ∧
        t.pc = (if s.v[x].toNat ≠ kk.toNat then s.pc + 4#16 else s.pc + 2#16))

/-- 41_control_flow.md section 2 (R146, R147): the skips on two registers, for every value of the last digit, which the
decoder ignores (D8, log 12). -/
def Obligations.RegisterSkipsMoveByFourOrTwo : Prop :=
  ∀ (x y : Index) (d : BitVec 4) (s : State),
    (decode (0x5#4 ++ indexField x ++ indexField y ++ d) = .seReg x y ∧
      ∃ t, exec (.seReg x y) s = .next t ∧ FrameExcept [.pc] s t ∧
        t.pc = (if s.v[x].toNat = s.v[y].toNat then s.pc + 4#16 else s.pc + 2#16)) ∧
    (decode (0x9#4 ++ indexField x ++ indexField y ++ d) = .sneReg x y ∧
      ∃ t, exec (.sneReg x y) s = .next t ∧ FrameExcept [.pc] s t ∧
        t.pc = (if s.v[x].toNat ≠ s.v[y].toNat then s.pc + 4#16 else s.pc + 2#16))

/-- 41_control_flow.md R148 (supplied from general knowledge, GK5, D9; log 13). -/
def Obligations.JumpWithOffsetAddsVZero : Prop :=
  ∀ (nnn : Addr) (s : State),
    decode (0xB#4 ++ nnn) = .jpV0 nnn ∧
    ∃ t, exec (.jpV0 nnn) s = .next t ∧ t.pc.toNat = nnn.toNat + s.v[(0 : Index)].toNat ∧ FrameExcept [.pc] s t

/-- 40_fetch_decode_cycle.md R127 (D5): an unrecognized opcode does nothing; in a cycle of a running machine `PC` stays and
the timers tick. -/
def Obligations.UnrecognizedOpcodeOnlyTicks : Prop :=
  (∀ (op : Word) (s : State), ∃ t, exec (.unrecognized op) s = .next t ∧ FrameExcept [] s t) ∧
  (∀ (s : State) (op : Word), s.running → s.pc.toNat ≤ 0xFFE → decode s.fetch = .unrecognized op →
    ∃ t, cycle s = .next t ∧ t.dt.toNat = s.dt.toNat - 1 ∧ t.st.toNat = s.st.toNat - 1 ∧
      FrameExcept [.dt, .st, .env] s t)

/-! ### Registers -/

/-- 42_register_alu.md R161, R162: load immediate, and add immediate, which writes no flag. -/
def Obligations.LoadAndAddImmediate : Prop :=
  ∀ (x : Index) (kk : Byte) (s : State),
    (decode (0x6#4 ++ indexField x ++ kk) = .ldImm x kk ∧
      ∃ t, exec (.ldImm x kk) s = .next t ∧ t.v[x] = kk ∧
        (∀ r : Index, r ≠ x → t.v[r] = s.v[r]) ∧ t.pc = s.pc + 2#16 ∧ FrameExcept [.v, .pc] s t) ∧
    (decode (0x7#4 ++ indexField x ++ kk) = .addImm x kk ∧
      ∃ t, exec (.addImm x kk) s = .next t ∧ t.v[x].toNat = (s.v[x].toNat + kk.toNat) % 256 ∧
        (∀ r : Index, r ≠ x → t.v[r] = s.v[r]) ∧ t.pc = s.pc + 2#16 ∧ FrameExcept [.v, .pc] s t)

/-- 42_register_alu.md R163 to R166: copy, OR, AND, XOR, bit by bit; no flag is written. (The digits of the encodings are
those the rules give; the spec takes them from general knowledge, GK1, log 10.) -/
def Obligations.CopyAndLogicBitByBit : Prop :=
  ∀ (x y : Index) (s : State),
    (decode (0x8#4 ++ indexField x ++ indexField y ++ 0x0#4) = .ldReg x y ∧
      ∃ t, exec (.ldReg x y) s = .next t ∧ t.v[x] = s.v[y] ∧
        (∀ r : Index, r ≠ x → t.v[r] = s.v[r]) ∧ t.pc = s.pc + 2#16 ∧ FrameExcept [.v, .pc] s t) ∧
    (decode (0x8#4 ++ indexField x ++ indexField y ++ 0x1#4) = .orReg x y ∧
      ∃ t, exec (.orReg x y) s = .next t ∧
        (∀ b < 8, t.v[x].getLsbD b = (s.v[x].getLsbD b || s.v[y].getLsbD b)) ∧
        (∀ r : Index, r ≠ x → t.v[r] = s.v[r]) ∧ t.pc = s.pc + 2#16 ∧ FrameExcept [.v, .pc] s t) ∧
    (decode (0x8#4 ++ indexField x ++ indexField y ++ 0x2#4) = .andReg x y ∧
      ∃ t, exec (.andReg x y) s = .next t ∧
        (∀ b < 8, t.v[x].getLsbD b = (s.v[x].getLsbD b && s.v[y].getLsbD b)) ∧
        (∀ r : Index, r ≠ x → t.v[r] = s.v[r]) ∧ t.pc = s.pc + 2#16 ∧ FrameExcept [.v, .pc] s t) ∧
    (decode (0x8#4 ++ indexField x ++ indexField y ++ 0x3#4) = .xorReg x y ∧
      ∃ t, exec (.xorReg x y) s = .next t ∧
        (∀ b < 8, t.v[x].getLsbD b = (s.v[x].getLsbD b != s.v[y].getLsbD b)) ∧
        (∀ r : Index, r ≠ x → t.v[r] = s.v[r]) ∧ t.pc = s.pc + 2#16 ∧ FrameExcept [.v, .pc] s t)

/-- 42_register_alu.md R167 (D4; with x or y = 15 by the order of R176, D7, log 11): the sum, and VF set on carry only. -/
def Obligations.AddRegistersSetsFlagOnCarryOnly : Prop :=
  ∀ (x y : Index) (s : State),
    decode (0x8#4 ++ indexField x ++ indexField y ++ 0x4#4) = .addReg x y ∧
    ∃ t, exec (.addReg x y) s = .next t ∧ t.pc = s.pc + 2#16 ∧ FrameExcept [.v, .pc] s t ∧
      (∀ r : Index, r ≠ x → r ≠ 15 → t.v[r] = s.v[r]) ∧
      (x ≠ 15 → t.v[x].toNat = (s.v[x].toNat + s.v[y].toNat) % 256) ∧
      (255 < s.v[x].toNat + s.v[y].toNat → t.v[(15 : Index)] = 1#8) ∧
      (s.v[x].toNat + s.v[y].toNat ≤ 255 → x ≠ 15 → t.v[(15 : Index)] = s.v[(15 : Index)]) ∧
      (s.v[x].toNat + s.v[y].toNat ≤ 255 → x = 15 → t.v[(15 : Index)].toNat = s.v[x].toNat + s.v[y].toNat)

/-- 42_register_alu.md R168, R169 (with x or y = 15 by the order of R176, D7, log 11): the strict flag and the difference,
by the rules' own tables of corner cases. -/
def Obligations.SubtractionsUseTheStrictFlag : Prop :=
  ∀ (x y : Index) (s : State),
    let a := s.v[x].toNat
    let b := s.v[y].toNat
    let g := if b < a then 1 else 0
    let h := if a < b then 1 else 0
    (decode (0x8#4 ++ indexField x ++ indexField y ++ 0x5#4) = .sub x y ∧
      ∃ t, exec (.sub x y) s = .next t ∧ t.pc = s.pc + 2#16 ∧ FrameExcept [.v, .pc] s t ∧
        (∀ r : Index, r ≠ x → r ≠ 15 → t.v[r] = s.v[r]) ∧
        (x ≠ 15 → t.v[(15 : Index)].toNat = g) ∧
        (x ≠ 15 → y ≠ 15 → t.v[x].toNat = (a + 256 - b) % 256) ∧
        (x ≠ 15 → y = 15 → t.v[x].toNat = (a + 256 - g) % 256) ∧
        (x = 15 → y ≠ 15 → t.v[x].toNat = (g + 256 - b) % 256) ∧
        (x = 15 → y = 15 → t.v[x].toNat = 0)) ∧
    (decode (0x8#4 ++ indexField x ++ indexField y ++ 0x7#4) = .subn x y ∧
      ∃ t, exec (.subn x y) s = .next t ∧ t.pc = s.pc + 2#16 ∧ FrameExcept [.v, .pc] s t ∧
        (∀ r : Index, r ≠ x → r ≠ 15 → t.v[r] = s.v[r]) ∧
        (x ≠ 15 → t.v[(15 : Index)].toNat = h) ∧
        (x ≠ 15 → y ≠ 15 → t.v[x].toNat = (b + 256 - a) % 256) ∧
        (x ≠ 15 → y = 15 → t.v[x].toNat = (h + 256 - a) % 256) ∧
        (x = 15 → y ≠ 15 → t.v[x].toNat = (b + 256 - h) % 256) ∧
        (x = y → t.v[x].toNat = 0 ∧ t.v[(15 : Index)].toNat = 0))

/-- 42_register_alu.md R170, R171 (D4; with x = 15 by the order of R176, D7, log 11): the shifts of Vx, for every value of
the ignored field. -/
def Obligations.ShiftsFlagOneBitOfVx : Prop :=
  ∀ (x : Index) (d : BitVec 4) (s : State),
    let a := s.v[x].toNat
    let bit3 := if a / 8 % 2 = 1 then 8 else 0
    (decode (0x8#4 ++ indexField x ++ d ++ 0x6#4) = .shr x ∧
      ∃ t, exec (.shr x) s = .next t ∧ t.pc = s.pc + 2#16 ∧ FrameExcept [.v, .pc] s t ∧
        (∀ r : Index, r ≠ x → r ≠ 15 → t.v[r] = s.v[r]) ∧
        (x ≠ 15 → t.v[x].toNat = a / 2 ∧ t.v[(15 : Index)].toNat = a % 2) ∧
        (x = 15 → t.v[(15 : Index)].toNat = 0)) ∧
    (decode (0x8#4 ++ indexField x ++ d ++ 0xE#4) = .shl x ∧
      ∃ t, exec (.shl x) s = .next t ∧ t.pc = s.pc + 2#16 ∧ FrameExcept [.v, .pc] s t ∧
        (∀ r : Index, r ≠ x → r ≠ 15 → t.v[r] = s.v[r]) ∧
        (x ≠ 15 → t.v[x].toNat = 2 * a % 256 ∧ t.v[(15 : Index)].toNat = bit3) ∧
        (x = 15 → t.v[(15 : Index)].toNat = 2 * bit3))

/-- 42_register_alu.md R172 (the free value of D13, log 2): the next random byte AND kk, one draw an execution. -/
def Obligations.RndMasksOneFreshByte : Prop :=
  ∀ (x : Index) (kk : Byte) (s : State),
    decode (0xC#4 ++ indexField x ++ kk) = .rnd x kk ∧
    ∃ t, exec (.rnd x kk) s = .next t ∧ t.v[x] = Config.randByte s.env.draws &&& kk ∧ t.v[x] &&& ~~~kk = 0#8 ∧
      t.env = { s.env with draws := s.env.draws + 1 } ∧
      (∀ r : Index, r ≠ x → t.v[r] = s.v[r]) ∧ t.pc = s.pc + 2#16 ∧ FrameExcept [.v, .pc, .env] s t

/-- 42_register_alu.md R173, R175: `LD I, nnn` and `LD F, Vx`, the whole of `V[x]` used. (The digits of the encodings are
those the rules give; the spec takes them from general knowledge, GK1, log 10.) -/
def Obligations.LoadAddressRegister : Prop :=
  ∀ (nnn : Addr) (x : Index) (s : State),
    (decode (0xA#4 ++ nnn) = .ldI nnn ∧
      ∃ t, exec (.ldI nnn) s = .next t ∧ t.i.toNat = nnn.toNat ∧ t.pc = s.pc + 2#16 ∧ FrameExcept [.i, .pc] s t) ∧
    (decode (0xF#4 ++ indexField x ++ 0x29#8) = .ldF x ∧
      ∃ t, exec (.ldF x) s = .next t ∧ t.i.toNat = s.v[x].toNat * 5 ∧ t.pc = s.pc + 2#16 ∧ FrameExcept [.i, .pc] s t)

/-- 42_register_alu.md R174 (overflow by D2): the 16-bit sum, no flag; a sum above 0xFFFF faults. -/
def Obligations.AddToAddressRegister : Prop :=
  ∀ (x : Index) (s : State),
    decode (0xF#4 ++ indexField x ++ 0x1E#8) = .addI x ∧
    (s.i.toNat + s.v[x].toNat ≤ 0xFFFF → ∃ t, exec (.addI x) s = .next t ∧
      t.i.toNat = s.i.toNat + s.v[x].toNat ∧ t.pc = s.pc + 2#16 ∧ FrameExcept [.i, .pc] s t) ∧
    (0xFFFF < s.i.toNat + s.v[x].toNat → ∃ t, exec (.addI x) s = .next t ∧
      Latched t .addressRegisterOverflow s.i.toNat ∧ FrameExcept [.fault] s t)

/-! ### Memory -/

/-- 43_memory_block.md R190, R193 (fault by D2): three digits at I, I+1, I+2; every other byte as before. -/
def Obligations.BcdStoresThreeDigits : Prop :=
  ∀ (x : Index) (s : State), s.mem.wf = true →
    decode (0xF#4 ++ indexField x ++ 0x33#8) = .ldB x ∧
    (s.i.toNat + 2 ≤ 0xFFF → ∃ t, exec (.ldB x) s = .next t ∧
      (t.mem.read s.i.toNat).toNat = s.v[x].toNat / 100 ∧
      (t.mem.read (s.i.toNat + 1)).toNat = s.v[x].toNat / 10 % 10 ∧
      (t.mem.read (s.i.toNat + 2)).toNat = s.v[x].toNat % 10 ∧
      (∀ a, a < s.i.toNat ∨ s.i.toNat + 2 < a → t.mem.read a = s.mem.read a) ∧
      t.pc = s.pc + 2#16 ∧ FrameExcept [.mem, .pc] s t) ∧
    (0xFFF < s.i.toNat + 2 → ∃ t, exec (.ldB x) s = .next t ∧
      Latched t .memOutOfRange (max s.i.toNat 0x1000) ∧ FrameExcept [.fault] s t)

/-- 43_memory_block.md R191, R193 (fault by D2): V0..Vx at I..I+x; every other byte as before. -/
def Obligations.StoreRegistersThroughX : Prop :=
  ∀ (x : Index) (s : State), s.mem.wf = true →
    decode (0xF#4 ++ indexField x ++ 0x55#8) = .storeRegs x ∧
    (s.i.toNat + x.val ≤ 0xFFF → ∃ t, exec (.storeRegs x) s = .next t ∧
      (∀ r : Index, r ≤ x → t.mem.read (s.i.toNat + r.val) = s.v[r]) ∧
      (∀ a, a < s.i.toNat ∨ s.i.toNat + x.val < a → t.mem.read a = s.mem.read a) ∧
      t.pc = s.pc + 2#16 ∧ FrameExcept [.mem, .pc] s t) ∧
    (0xFFF < s.i.toNat + x.val → ∃ t, exec (.storeRegs x) s = .next t ∧
      Latched t .memOutOfRange (max s.i.toNat 0x1000) ∧ FrameExcept [.fault] s t)

/-- 43_memory_block.md R192, R193 (fault by D2): V0..Vx from I..I+x; no byte of memory changes. -/
def Obligations.LoadRegistersThroughX : Prop :=
  ∀ (x : Index) (s : State),
    decode (0xF#4 ++ indexField x ++ 0x65#8) = .loadRegs x ∧
    (s.i.toNat + x.val ≤ 0xFFF → ∃ t, exec (.loadRegs x) s = .next t ∧
      (∀ r : Index, r ≤ x → t.v[r] = s.mem.read (s.i.toNat + r.val)) ∧
      (∀ r : Index, x < r → t.v[r] = s.v[r]) ∧
      t.pc = s.pc + 2#16 ∧ FrameExcept [.v, .pc] s t) ∧
    (0xFFF < s.i.toNat + x.val → ∃ t, exec (.loadRegs x) s = .next t ∧
      Latched t .memOutOfRange (max s.i.toNat 0x1000) ∧ FrameExcept [.fault] s t)

/-- 43_memory_block.md R191, R192 ("inverse"): what `LD [I], Vx` stored, `LD Vx, [I]` brings back, whatever the registers
held in between. -/
def Obligations.LoadAfterStoreRestoresRegisters : Prop :=
  ∀ (x : Index) (s t u : State), s.mem.wf = true → s.i.toNat + x.val ≤ 0xFFF → exec (.storeRegs x) s = .next t →
    u.mem = t.mem → u.i = t.i →
    ∃ w, exec (.loadRegs x) u = .next w ∧ (∀ r : Index, r ≤ x → w.v[r] = s.v[r])

/-- 20_memory.md R63, R70: a store is seen by the next fetch, the byte at the lower address as the opcode's high byte. -/
def Obligations.StoreIsSeenByTheNextFetch : Prop :=
  ∀ (x r r' : Index) (s t u : State), s.mem.wf = true → s.i.toNat + x.val ≤ 0xFFF → exec (.storeRegs x) s = .next t →
    u.mem = t.mem → r'.val = r.val + 1 → r' ≤ x → u.pc.toNat = s.i.toNat + r.val →
    u.fetch.toNat = 256 * s.v[r].toNat + s.v[r'].toNat

/-! ### Display -/

/-- 44_display.md R200, for every value of the ignored digit (D8, log 12). -/
def Obligations.ClearScreenBlanksEveryRow : Prop :=
  ∀ (d : BitVec 4) (s : State),
    decode (0x0#4 ++ d ++ 0xE0#8) = .cls ∧
    ∃ t, exec .cls s = .next t ∧ (∀ r : Fin 32, t.fb[r] = 0#64) ∧ t.pc = s.pc + 2#16 ∧ FrameExcept [.fb, .pc] s t

/-- 44_display.md R202: where the eight pixels of a sprite byte fall, that nothing else is set, and the rotation the rule
names. -/
def Obligations.RowMaskPlacesTheEightPixels : Prop :=
  ∀ (b : Byte) (col : Nat), col < 64 →
    (∀ j < 8, (rowMask b col).getLsbD (63 - (col + j) % 64) = b.getLsbD (7 - j)) ∧
    (∀ p < 64, (∀ j < 8, p ≠ 63 - (col + j) % 64) → (rowMask b col).getLsbD p = false) ∧
    rowMask b col = (b.setWidth 64 <<< 56).rotateRight col

/-- 44_display.md R201, R203 (column reduced by D10, fault by D2): each row is XORed with the mask of the sprite row that
falls on it, VF is the collision, and nothing else changes; a sprite that reaches past 0xFFF faults. -/
def Obligations.DrawXorsTheSpriteIn : Prop :=
  ∀ (x y : Index) (n : Fin 16) (s : State),
    decode (0xD#4 ++ indexField x ++ indexField y ++ indexField n) = .drw x y n ∧
    (spriteInMemory s n → ∃ t, exec (.drw x y n) s = .next t ∧
      (∀ r : Fin 32,
        t.fb[r] = if (r.val + 256 - s.v[y].toNat) % 32 < n.val
          then s.fb[r] ^^^ rowMask (s.mem.read (s.i.toNat + (r.val + 256 - s.v[y].toNat) % 32)) (s.v[x].toNat % 64)
          else s.fb[r]) ∧
      ((∃ k < n.val, collides s x y k) → t.v[(15 : Index)] = 1#8) ∧
      (¬ (∃ k < n.val, collides s x y k) → t.v[(15 : Index)] = 0#8) ∧
      (∀ r : Index, r ≠ 15 → t.v[r] = s.v[r]) ∧ t.pc = s.pc + 2#16 ∧ FrameExcept [.fb, .v, .pc] s t) ∧
    (¬ spriteInMemory s n → ∃ t, exec (.drw x y n) s = .next t ∧
      Latched t .memOutOfRange (max s.i.toNat 0x1000) ∧ FrameExcept [.fault] s t)

/-- 44_display.md R203 (b): the same sprite drawn twice at the same location leaves the picture as it was, and the second
draw reports a collision if the first did not and the sprite has a lit bit. -/
def Obligations.DrawingTwiceRestoresThePicture : Prop :=
  ∀ (x y : Index) (n : Fin 16) (s t : State), spriteInMemory s n → exec (.drw x y n) s = .next t →
    t.v[x] = s.v[x] → t.v[y] = s.v[y] →
    ∃ u, exec (.drw x y n) t = .next u ∧ (∀ r : Fin 32, u.fb[r] = s.fb[r]) ∧
      (t.v[(15 : Index)] = 0#8 → (∃ k < n.val, s.mem.read (s.i.toNat + k) ≠ 0#8) → u.v[(15 : Index)] = 1#8)

/-- 44_display.md R203 (a): after `CLS` no sprite collides. -/
def Obligations.DrawOnClearScreenNeverCollides : Prop :=
  ∀ (x y : Index) (n : Fin 16) (s : State), spriteInMemory s n →
    ∃ t u, exec .cls s = .next t ∧ exec (.drw x y n) t = .next u ∧ u.v[(15 : Index)] = 0#8

/-! ### Input and timers -/

/-- 45_input_and_timers.md R220, R221 (operand by GK7, fault by D11; log 15). -/
def Obligations.KeySkipsReadTheLatch : Prop :=
  ∀ (x : Index) (s : State),
    decode (0xE#4 ++ indexField x ++ 0x9E#8) = .skp x ∧ decode (0xE#4 ++ indexField x ++ 0xA1#8) = .sknp x ∧
    (∀ k : Index, s.v[x].toNat = k.val →
      (∃ t, exec (.skp x) s = .next t ∧ FrameExcept [.pc] s t ∧
        t.pc = (if s.keys[k] = true then s.pc + 4#16 else s.pc + 2#16)) ∧
      (∃ t, exec (.sknp x) s = .next t ∧ FrameExcept [.pc] s t ∧
        t.pc = (if s.keys[k] = false then s.pc + 4#16 else s.pc + 2#16))) ∧
    (15 < s.v[x].toNat →
      (∃ t, exec (.skp x) s = .next t ∧ Latched t .keyIndexOutOfRange s.v[x].toNat ∧ FrameExcept [.fault] s t) ∧
      (∃ t, exec (.sknp x) s = .next t ∧ Latched t .keyIndexOutOfRange s.v[x].toNat ∧ FrameExcept [.fault] s t))

/-- 45_input_and_timers.md R222: the wait begins, `V[x]` is not written, and cycles that follow do nothing. -/
def Obligations.WaitForKeySuspendsTheMachine : Prop :=
  ∀ (x : Index) (s : State),
    decode (0xF#4 ++ indexField x ++ 0x0A#8) = .ldVxK x ∧
    ∃ t, exec (.ldVxK x) s = .next t ∧ t.waiting = true ∧ t.waitTarget = x ∧ t.pc = s.pc + 2#16 ∧
      FrameExcept [.waiting, .waitTarget, .pc] s t ∧ cycle t = .next t ∧ cycle t.tick = .next t.tick

/-- 45_input_and_timers.md R223 to R225 (supplied from general knowledge, GK6, D9; log 13). -/
def Obligations.TimerRegistersAreReadAndWritten : Prop :=
  ∀ (x : Index) (s : State),
    (decode (0xF#4 ++ indexField x ++ 0x07#8) = .ldVxDt x ∧
      ∃ t, exec (.ldVxDt x) s = .next t ∧ t.v[x] = s.dt ∧ (∀ r : Index, r ≠ x → t.v[r] = s.v[r]) ∧
        t.pc = s.pc + 2#16 ∧ FrameExcept [.v, .pc] s t) ∧
    (decode (0xF#4 ++ indexField x ++ 0x15#8) = .ldDtVx x ∧
      ∃ t, exec (.ldDtVx x) s = .next t ∧ t.dt = s.v[x] ∧ t.pc = s.pc + 2#16 ∧ FrameExcept [.dt, .pc] s t) ∧
    (decode (0xF#4 ++ indexField x ++ 0x18#8) = .ldStVx x ∧
      ∃ t, exec (.ldStVx x) s = .next t ∧ t.st = s.v[x] ∧ t.pc = s.pc + 2#16 ∧ FrameExcept [.st, .pc] s t)

/-! ### The host's transactions -/

/-- 60_exceptions.md R248 to R250 (the delivered key by the free choice of D12, log 3): the latch is replaced on every
call, and a rising edge while waiting delivers one rising key to the target register and ends the wait. -/
def Obligations.UpdateInputReplacesTheLatch : Prop :=
  ∀ (s : State) (keys : Keys), s.faulted = false →
    ∃ u, transact (.updateInput keys) s = .next u ∧ (∀ k : Index, u.keys[k] = keys[k]) ∧
      ((s.waiting = false ∨ ∀ k : Index, ¬ (s.keys[k] = false ∧ keys[k] = true)) → FrameExcept [.keys] s u) ∧
      (s.waiting = true → (∃ k : Index, s.keys[k] = false ∧ keys[k] = true) →
        ∃ k : Index, s.keys[k] = false ∧ keys[k] = true ∧ u.v[s.waitTarget].toNat = k.val ∧
          u.waiting = false ∧ u.waitTarget = 0 ∧ (∀ r : Index, r ≠ s.waitTarget → u.v[r] = s.v[r]) ∧
          FrameExcept [.v, .keys, .waiting, .waitTarget] s u)

/-- 70_reset_and_hazards.md R281 (glyphs 1..F a parameter, D19, log 9): the 80 bytes of the font, and nothing else. -/
def Obligations.InitInstallsTheFont : Prop :=
  ∀ (glyphs : Vector Byte 75) (s : State), s.mem.wf = true →
    (s.faulted = false →
      (s.initWith glyphs).mem.readBytes 0 5 = [0xF0#8, 0x90#8, 0x90#8, 0x90#8, 0xF0#8] ∧
      (∀ k : Fin 75, (s.initWith glyphs).mem.read (5 + k.val) = glyphs[k]) ∧
      (∀ a, 80 ≤ a → (s.initWith glyphs).mem.read a = s.mem.read a) ∧
      FrameExcept [.mem] s (s.initWith glyphs)) ∧
    (s.faulted = true → s.initWith glyphs = s)

/-- 70_reset_and_hazards.md R282 (too large a program by D16): byte k of the program at 0x200 + k, nothing else. -/
def Obligations.LoadCopiesTheProgram : Prop :=
  ∀ (bytes : List Byte) (s : State), s.mem.wf = true → s.faulted = false →
    (bytes.length ≤ 3584 →
      (∀ k : Nat, k < bytes.length → (s.load bytes).mem.read (0x200 + k) = bytes.getD k 0#8) ∧
      (∀ a, a < 0x200 ∨ 0x200 + bytes.length ≤ a → (s.load bytes).mem.read a = s.mem.read a) ∧
      FrameExcept [.mem] s (s.load bytes)) ∧
    (3584 < bytes.length →
      Latched (s.load bytes) .loadTooLarge (min bytes.length 0xFFFF) ∧ FrameExcept [.fault] s (s.load bytes))

/-- 70_reset_and_hazards.md R283: `init` and `load` in either order give the same state. -/
def Obligations.InitAndLoadCommute : Prop :=
  ∀ (glyphs : Vector Byte 75) (bytes : List Byte) (s : State), s.mem.wf = true → bytes.length ≤ 3584 →
    (s.initWith glyphs).load bytes = (s.load bytes).initWith glyphs

/-- 20_memory.md R61, 70_reset_and_hazards.md R283: the address map after `reset`, `init` and `load`, performed as two
steps from reset (the host's script is the model's own, log 4; glyphs 1..F the default, log 9). -/
def Obligations.BootLaysOutTheMemoryMap : Prop :=
  ∀ bytes : List Byte, bytes.length ≤ 3584 →
    ∃ t, Host.Core.run Sys2Proof.core 2
        { State.reset with env := { Env.start with script := [.init, .load bytes] } } = .next t ∧
      (∀ a, t.mem.read a =
        if a < 0x50 then (fontBytes standardGlyphs).getD a 0#8
        else if a < 0x200 then 0#8
        else if a < 0x200 + bytes.length then bytes.getD (a - 0x200) 0#8
        else 0#8) ∧
      FrameExcept [.mem, .env] State.reset t
end

