-- ==== Sys2Proof/Laws/Decode.lean ====
section
/-! SUPPORT. The laws of the encoding: the fields of an opcode put together from fields, an opcode put together from its
fields, and what every format decodes to. -/

namespace Sys2Proof

theorem toNat_append_add {m n : Nat} (a : BitVec m) (b : BitVec n) : (a ++ b).toNat = a.toNat * 2 ^ n + b.toNat := by
  rw [BitVec.toNat_append, ← Nat.shiftLeft_add_eq_or_of_lt b.isLt, Nat.shiftLeft_eq]

@[simp] theorem groupOf_xyn (g x y n : BitVec 4) : groupOf (g ++ x ++ y ++ n) = g := by
  apply BitVec.eq_of_toNat_eq
  simp only [groupOf, BitVec.extractLsb'_toNat, toNat_append_add, Nat.shiftRight_eq_div_pow]
  omega

@[simp] theorem xOf_xyn (g x y n : BitVec 4) : xOf (g ++ x ++ y ++ n) = x := by
  apply BitVec.eq_of_toNat_eq
  simp only [xOf, BitVec.extractLsb'_toNat, toNat_append_add, Nat.shiftRight_eq_div_pow]
  omega

@[simp] theorem yOf_xyn (g x y n : BitVec 4) : yOf (g ++ x ++ y ++ n) = y := by
  apply BitVec.eq_of_toNat_eq
  simp only [yOf, BitVec.extractLsb'_toNat, toNat_append_add, Nat.shiftRight_eq_div_pow]
  omega

@[simp] theorem nOf_xyn (g x y n : BitVec 4) : nOf (g ++ x ++ y ++ n) = n := by
  apply BitVec.eq_of_toNat_eq
  simp only [nOf, BitVec.extractLsb'_toNat, toNat_append_add, Nat.shiftRight_eq_div_pow]
  omega

@[simp] theorem kkOf_xyn (g x y n : BitVec 4) : kkOf (g ++ x ++ y ++ n) = y ++ n := by
  apply BitVec.eq_of_toNat_eq
  simp only [kkOf, BitVec.extractLsb'_toNat, toNat_append_add, Nat.shiftRight_eq_div_pow]
  omega

@[simp] theorem groupOf_xkk (g x : BitVec 4) (kk : Byte) : groupOf (g ++ x ++ kk) = g := by
  apply BitVec.eq_of_toNat_eq
  simp only [groupOf, BitVec.extractLsb'_toNat, toNat_append_add, Nat.shiftRight_eq_div_pow]
  omega

@[simp] theorem xOf_xkk (g x : BitVec 4) (kk : Byte) : xOf (g ++ x ++ kk) = x := by
  apply BitVec.eq_of_toNat_eq
  simp only [xOf, BitVec.extractLsb'_toNat, toNat_append_add, Nat.shiftRight_eq_div_pow]
  omega

@[simp] theorem kkOf_xkk (g x : BitVec 4) (kk : Byte) : kkOf (g ++ x ++ kk) = kk := by
  apply BitVec.eq_of_toNat_eq
  simp only [kkOf, BitVec.extractLsb'_toNat, toNat_append_add, Nat.shiftRight_eq_div_pow]
  omega

@[simp] theorem groupOf_nnn (g : BitVec 4) (nnn : Addr) : groupOf (g ++ nnn) = g := by
  apply BitVec.eq_of_toNat_eq
  simp only [groupOf, BitVec.extractLsb'_toNat, toNat_append_add, Nat.shiftRight_eq_div_pow]
  omega

@[simp] theorem nnnOf_nnn (g : BitVec 4) (nnn : Addr) : nnnOf (g ++ nnn) = nnn := by
  apply BitVec.eq_of_toNat_eq
  simp only [nnnOf, BitVec.extractLsb'_toNat, toNat_append_add, Nat.shiftRight_eq_div_pow]
  omega

/-- An opcode is its four nibbles (R91). -/
theorem nibbles_of_opcode (op : Word) : op = groupOf op ++ xOf op ++ yOf op ++ nOf op := by
  apply BitVec.eq_of_toNat_eq
  simp only [groupOf, xOf, yOf, nOf, BitVec.extractLsb'_toNat, toNat_append_add, Nat.shiftRight_eq_div_pow]
  omega

/-- The low byte is the two low nibbles (R91). -/
theorem kkOf_eq_nibbles (op : Word) : kkOf op = yOf op ++ nOf op := by
  apply BitVec.eq_of_toNat_eq
  simp only [kkOf, yOf, nOf, BitVec.extractLsb'_toNat, toNat_append_add, Nat.shiftRight_eq_div_pow]
  omega

@[simp] theorem fieldIndex_indexField (x : Index) : fieldIndex (indexField x) = x := rfl

@[simp] theorem indexField_fieldIndex (f : BitVec 4) : indexField (fieldIndex f) = f := rfl

@[simp] theorem opcodeOf_bytes (op : Word) : opcodeOf (highByte op) (lowByte op) = op := by
  apply BitVec.eq_of_toNat_eq
  simp only [opcodeOf, highByte, lowByte, BitVec.extractLsb'_toNat, toNat_append_add, Nat.shiftRight_eq_div_pow]
  omega

@[simp] theorem decodeBytes_opcode (op : Word) (rest : List Byte) :
    decodeBytes (highByte op :: lowByte op :: rest) = .ok (decode op, rest) := by
  simp [decodeBytes]

/-! ### What each encoding decodes to (R94) -/

theorem decode_cls (d : BitVec 4) : decode (0x0#4 ++ d ++ 0xE0#8) = .cls := by
  simp [decode, decodeGroup0]

theorem decode_ret (d : BitVec 4) : decode (0x0#4 ++ d ++ 0xEE#8) = .ret := by
  simp [decode, decodeGroup0]

theorem decode_jp (nnn : Addr) : decode (0x1#4 ++ nnn) = .jp nnn := by
  simp [decode]

theorem decode_call (nnn : Addr) : decode (0x2#4 ++ nnn) = .call nnn := by
  simp [decode]

theorem decode_seImm (x : Index) (kk : Byte) : decode (0x3#4 ++ indexField x ++ kk) = .seImm x kk := by
  simp [decode]

theorem decode_sneImm (x : Index) (kk : Byte) : decode (0x4#4 ++ indexField x ++ kk) = .sneImm x kk := by
  simp [decode]

theorem decode_seReg (x y : Index) (d : BitVec 4) : decode (0x5#4 ++ indexField x ++ indexField y ++ d) = .seReg x y := by
  simp [decode]

theorem decode_ldImm (x : Index) (kk : Byte) : decode (0x6#4 ++ indexField x ++ kk) = .ldImm x kk := by
  simp [decode]

theorem decode_addImm (x : Index) (kk : Byte) : decode (0x7#4 ++ indexField x ++ kk) = .addImm x kk := by
  simp [decode]

theorem decode_ldReg (x y : Index) : decode (0x8#4 ++ indexField x ++ indexField y ++ 0x0#4) = .ldReg x y := by
  simp [decode, decodeGroup8]

theorem decode_orReg (x y : Index) : decode (0x8#4 ++ indexField x ++ indexField y ++ 0x1#4) = .orReg x y := by
  simp [decode, decodeGroup8]

theorem decode_andReg (x y : Index) : decode (0x8#4 ++ indexField x ++ indexField y ++ 0x2#4) = .andReg x y := by
  simp [decode, decodeGroup8]

theorem decode_xorReg (x y : Index) : decode (0x8#4 ++ indexField x ++ indexField y ++ 0x3#4) = .xorReg x y := by
  simp [decode, decodeGroup8]

theorem decode_addReg (x y : Index) : decode (0x8#4 ++ indexField x ++ indexField y ++ 0x4#4) = .addReg x y := by
  simp [decode, decodeGroup8]

theorem decode_sub (x y : Index) : decode (0x8#4 ++ indexField x ++ indexField y ++ 0x5#4) = .sub x y := by
  simp [decode, decodeGroup8]

theorem decode_shr (x : Index) (d : BitVec 4) : decode (0x8#4 ++ indexField x ++ d ++ 0x6#4) = .shr x := by
  simp [decode, decodeGroup8]

theorem decode_subn (x y : Index) : decode (0x8#4 ++ indexField x ++ indexField y ++ 0x7#4) = .subn x y := by
  simp [decode, decodeGroup8]

theorem decode_shl (x : Index) (d : BitVec 4) : decode (0x8#4 ++ indexField x ++ d ++ 0xE#4) = .shl x := by
  simp [decode, decodeGroup8]

theorem decode_sneReg (x y : Index) (d : BitVec 4) : decode (0x9#4 ++ indexField x ++ indexField y ++ d) = .sneReg x y := by
  simp [decode]

theorem decode_ldI (nnn : Addr) : decode (0xA#4 ++ nnn) = .ldI nnn := by
  simp [decode]

theorem decode_jpV0 (nnn : Addr) : decode (0xB#4 ++ nnn) = .jpV0 nnn := by
  simp [decode]

theorem decode_rnd (x : Index) (kk : Byte) : decode (0xC#4 ++ indexField x ++ kk) = .rnd x kk := by
  simp [decode]

theorem decode_drw (x y : Index) (n : Fin 16) : decode (0xD#4 ++ indexField x ++ indexField y ++ indexField n) = .drw x y n := by
  simp [decode]

theorem decode_skp (x : Index) : decode (0xE#4 ++ indexField x ++ 0x9E#8) = .skp x := by
  simp [decode, decodeGroupE]

theorem decode_sknp (x : Index) : decode (0xE#4 ++ indexField x ++ 0xA1#8) = .sknp x := by
  simp [decode, decodeGroupE]

theorem decode_ldVxDt (x : Index) : decode (0xF#4 ++ indexField x ++ 0x07#8) = .ldVxDt x := by
  simp [decode, decodeGroupF]

theorem decode_ldVxK (x : Index) : decode (0xF#4 ++ indexField x ++ 0x0A#8) = .ldVxK x := by
  simp [decode, decodeGroupF]

theorem decode_ldDtVx (x : Index) : decode (0xF#4 ++ indexField x ++ 0x15#8) = .ldDtVx x := by
  simp [decode, decodeGroupF]

theorem decode_ldStVx (x : Index) : decode (0xF#4 ++ indexField x ++ 0x18#8) = .ldStVx x := by
  simp [decode, decodeGroupF]

theorem decode_addI (x : Index) : decode (0xF#4 ++ indexField x ++ 0x1E#8) = .addI x := by
  simp [decode, decodeGroupF]

theorem decode_ldF (x : Index) : decode (0xF#4 ++ indexField x ++ 0x29#8) = .ldF x := by
  simp [decode, decodeGroupF]

theorem decode_ldB (x : Index) : decode (0xF#4 ++ indexField x ++ 0x33#8) = .ldB x := by
  simp [decode, decodeGroupF]

theorem decode_storeRegs (x : Index) : decode (0xF#4 ++ indexField x ++ 0x55#8) = .storeRegs x := by
  simp [decode, decodeGroupF]

theorem decode_loadRegs (x : Index) : decode (0xF#4 ++ indexField x ++ 0x65#8) = .loadRegs x := by
  simp [decode, decodeGroupF]

theorem toNat_groupOf (op : Word) : (groupOf op).toNat = op.toNat / 4096 := by
  simp only [groupOf, BitVec.extractLsb'_toNat, Nat.shiftRight_eq_div_pow]
  omega

theorem toNat_kkOf (op : Word) : (kkOf op).toNat = op.toNat % 256 := by
  simp only [kkOf, BitVec.extractLsb'_toNat, Nat.shiftRight_eq_div_pow]
  omega

theorem toNat_nOf (op : Word) : (nOf op).toNat = op.toNat % 16 := by
  simp only [nOf, BitVec.extractLsb'_toNat, Nat.shiftRight_eq_div_pow]
  omega

/-- An unassigned opcode falls through to the default in its group (R95 to R98, R100). -/
theorem decode_of_unassigned (op : Word) (h : unassigned op = true) : decode op = .unrecognized op := by
  have hg := toNat_groupOf op
  have hk := toNat_kkOf op
  have hn := toNat_nOf op
  simp only [unassigned, Bool.or_eq_true, Bool.and_eq_true, Bool.not_eq_true', beq_iff_eq, Bool.or_eq_false_iff,
    beq_eq_false_iff_ne] at h
  have k : ∀ b : Byte, kkOf op = b → op.toNat % 256 = b.toNat := fun b e => by rw [← hk, e]
  have n : ∀ b : BitVec 4, nOf op = b → op.toNat % 16 = b.toNat := fun b e => by rw [← hn, e]
  rcases h with ((h | h) | h) | h
  · have e : groupOf op = 0x0#4 := BitVec.eq_of_toNat_eq (by rw [hg, h.1]; rfl)
    have d : decode op = decodeGroup0 op := by simp [decode, e]
    rw [d, decodeGroup0]
    split <;> first | rfl | (have := k _ ‹_›; simp at this; omega)
  · have e : groupOf op = 0x8#4 := BitVec.eq_of_toNat_eq (by rw [hg, h.1]; rfl)
    have d : decode op = decodeGroup8 op := by simp [decode, e]
    rw [d, decodeGroup8]
    split <;> first | rfl | (have := n _ ‹_›; simp at this; omega)
  · have e : groupOf op = 0xE#4 := BitVec.eq_of_toNat_eq (by rw [hg, h.1]; rfl)
    have d : decode op = decodeGroupE op := by simp [decode, e]
    rw [d, decodeGroupE]
    split <;> first | rfl | (have := k _ ‹_›; simp at this; omega)
  · have e : groupOf op = 0xF#4 := BitVec.eq_of_toNat_eq (by rw [hg, h.1]; rfl)
    have d : decode op = decodeGroupF op := by simp [decode, e]
    rw [d, decodeGroupF]
    split <;> first | rfl | (have := k _ ‹_›; simp at this; omega)

end Sys2Proof
end

