-- ==== Sys2Proof/Laws/Memory.lean ====
section
/-! SUPPORT. The laws of memory: the canonical form is kept by every operation, and what a read answers after a write. -/

namespace Sys2Proof.Machine

theorem Memory.wfFrom_cons {lo k : Nat} {b : Byte} {m : Memory} :
    Memory.wfFrom lo ((k, b) :: m) = true ↔
      lo ≤ k ∧ k < Config.memSize ∧ b ≠ 0#8 ∧ Memory.wfFrom (k + 1) m = true := by
  simp [Memory.wfFrom, and_assoc]

theorem Memory.wfFrom_mono {lo lo' : Nat} (h : lo' ≤ lo) : ∀ {m : Memory}, wfFrom lo m = true → wfFrom lo' m = true
  | [], _ => rfl
  | (k, b) :: m, hm => by
    rw [wfFrom_cons] at hm ⊢
    exact ⟨by omega, hm.2⟩

/-- Below its first possible address a memory reads 0. -/
theorem Memory.read_below : ∀ {m : Memory} {lo a : Nat}, wfFrom lo m = true → a < lo → m.read a = 0#8
  | [], _, _, _, _ => rfl
  | (k, b) :: m, lo, a, hm, ha => by
    rw [wfFrom_cons] at hm
    have hk : k ≠ a := by omega
    simpa [read, hk] using read_below hm.2.2.2 (show a < k + 1 by omega)

/-- There is no byte above 0xFFF. -/
theorem Memory.read_outside : ∀ {m : Memory} {lo a : Nat}, wfFrom lo m = true → Config.memSize ≤ a → m.read a = 0#8
  | [], _, _, _, _ => rfl
  | (k, b) :: m, lo, a, hm, ha => by
    rw [wfFrom_cons] at hm
    have hk : k ≠ a := by omega
    simpa [read, hk] using read_outside hm.2.2.2 ha

theorem Memory.put_wfFrom : ∀ {m : Memory} {lo a : Nat} {b : Byte}, wfFrom lo m = true → lo ≤ a →
    a < Config.memSize → wfFrom lo (m.put a b) = true
  | [], lo, a, b, _, hlo, ha => by
    by_cases hb : b = 0#8
    · simp [put, hb, wfFrom]
    · simp [put, hb, hlo, ha, wfFrom]
  | (k, c) :: m, lo, a, b, hm, hlo, ha => by
    have hm' := wfFrom_cons.mp hm
    rcases Nat.lt_trichotomy a k with h | h | h
    · by_cases hb : b = 0#8
      · simp [put, h, hb, hm]
      · simp only [put, h, hb, if_true, if_false, wfFrom_cons]
        exact ⟨hlo, ha, hb, by omega, hm'.2⟩
    · subst h
      by_cases hb : b = 0#8
      · simpa [put, hb] using wfFrom_mono (by omega) hm'.2.2.2
      · simp [put, hb, wfFrom_cons, hlo, ha, hm'.2.2.2]
    · have h1 : ¬ a < k := by omega
      have h2 : a ≠ k := by omega
      simp only [put, h1, h2, if_false, wfFrom_cons]
      exact ⟨hm'.1, hm'.2.1, hm'.2.2.1, put_wfFrom hm'.2.2.2 (by omega) ha⟩

theorem Memory.put_read : ∀ {m : Memory} {lo a : Nat} {b : Byte} (a' : Nat), wfFrom lo m = true →
    (m.put a b).read a' = if a' = a then b else m.read a'
  | [], lo, a, b, a', _ => by
    by_cases h : a = a'
    · subst h
      by_cases hb : b = 0#8
      · simp [put, hb, read]
      · simp [put, hb, read]
    · have h' : a' ≠ a := Ne.symm h
      by_cases hb : b = 0#8
      · simp [put, hb, read, h']
      · simp [put, hb, read, h, h']
  | (k, c) :: m, lo, a, b, a', hm => by
    have hm' := wfFrom_cons.mp hm
    rcases Nat.lt_trichotomy a k with h | h | h
    · have h0 : Memory.read ((k, c) :: m) a = 0#8 := read_below (lo := a + 1) (by rw [wfFrom_cons]; exact ⟨by omega, hm'.2⟩) (by omega)
      by_cases hb : b = 0#8
      · by_cases ha : a' = a
        · subst ha; simp [put, h, hb, h0]
        · simp [put, h, hb, ha]
      · by_cases ha : a' = a
        · subst ha; simp [put, h, hb, read]
        · simp [put, h, hb, ha, read, Ne.symm ha]
    · subst h
      have h0 : Memory.read m a = 0#8 := read_below hm'.2.2.2 (Nat.lt_succ_self a)
      by_cases ha : a = a'
      · subst ha
        by_cases hb : b = 0#8
        · simp [put, hb, h0]
        · simp [put, hb, read]
      · have ha' : a' ≠ a := Ne.symm ha
        by_cases hb : b = 0#8
        · simp [put, hb, read, ha, ha']
        · simp [put, hb, read, ha, ha']
    · have h1 : ¬ a < k := by omega
      have h2 : a ≠ k := by omega
      simp only [put, h1, h2, if_false, read, put_read a' hm'.2.2.2]
      by_cases hk : k = a'
      · have : a' ≠ a := by omega
        simp [hk, this]
      · simp [hk]

/-- A write keeps the canonical form, at every address. -/
theorem Memory.write_wf {m : Memory} (h : m.wf = true) (a : Nat) (b : Byte) : (m.write a b).wf = true := by
  unfold write
  split
  · exact put_wfFrom h (Nat.zero_le _) ‹_›
  · exact h

/-- Read after write (R66). -/
theorem Memory.read_write {m : Memory} (h : m.wf = true) {a : Nat} (ha : a < Config.memSize) (b : Byte) (a' : Nat) :
    (m.write a b).read a' = if a' = a then b else m.read a' := by
  simp [write, ha, put_read a' h]

theorem Memory.writeBytes_wf : ∀ {bs : List Byte} {m : Memory} {a : Nat}, m.wf = true → (m.writeBytes a bs).wf = true
  | [], _, _, h => h
  | b :: bs, m, a, h => by
    simpa [writeBytes] using writeBytes_wf (bs := bs) (write_wf h a b)

/-- What a block of bytes leaves: the bytes in their place, every other address as before. -/
theorem Memory.read_writeBytes : ∀ {bs : List Byte} {m : Memory} {a : Nat} (_ : m.wf = true)
    (_ : a + bs.length ≤ Config.memSize) (a' : Nat),
    (m.writeBytes a bs).read a' = if a ≤ a' ∧ a' < a + bs.length then bs.getD (a' - a) 0#8 else m.read a'
  | [], m, a, _, _, a' => by
    have : ¬ (a ≤ a' ∧ a' < a) := by omega
    simp [writeBytes, this]
  | b :: bs, m, a, h, hl, a' => by
    simp only [List.length_cons] at hl ⊢
    rw [writeBytes, read_writeBytes (write_wf h a b) (by omega), read_write h (by omega)]
    rcases Nat.lt_trichotomy a' a with h1 | h1 | h1
    · have e1 : ¬ (a + 1 ≤ a' ∧ a' < a + 1 + bs.length) := by omega
      have e2 : ¬ (a ≤ a' ∧ a' < a + (bs.length + 1)) := by omega
      have e3 : a' ≠ a := by omega
      rw [if_neg e1, if_neg e2, if_neg e3]
    · subst h1
      have e1 : ¬ (a' + 1 ≤ a' ∧ a' < a' + 1 + bs.length) := by omega
      have e2 : (a' ≤ a' ∧ a' < a' + (bs.length + 1)) := by omega
      rw [if_neg e1, if_pos e2]; simp
    · obtain ⟨d, rfl⟩ : ∃ d, a' = a + 1 + d := ⟨a' - (a + 1), by omega⟩
      have e3 : a + 1 + d ≠ a := by omega
      have e4 : a + 1 + d - (a + 1) = d := by omega
      have e5 : a + 1 + d - a = d + 1 := by omega
      have e6 : (a + 1 ≤ a + 1 + d ∧ a + 1 + d < a + 1 + bs.length) ↔ (a ≤ a + 1 + d ∧ a + 1 + d < a + (bs.length + 1)) := by
        omega
      rw [if_neg e3, e4, e5, List.getD_cons_succ]
      exact if_congr e6 rfl rfl

@[simp] theorem Memory.length_readBytes (m : Memory) : ∀ (n a : Nat), (m.readBytes a n).length = n
  | 0, _ => rfl
  | n + 1, a => by simp [readBytes, length_readBytes m n]

theorem Memory.getD_readBytes (m : Memory) : ∀ (n a k : Nat), k < n → (m.readBytes a n).getD k 0#8 = m.read (a + k)
  | 0, _, _, h => by omega
  | n + 1, a, 0, _ => by simp [readBytes]
  | n + 1, a, k + 1, h => by
    have e : a + 1 + k = a + (k + 1) := by omega
    simpa [readBytes, e] using getD_readBytes m n (a + 1) k (by omega)

theorem Memory.ext_from : ∀ {m m' : Memory} {lo : Nat}, wfFrom lo m = true → wfFrom lo m' = true →
    (∀ a, m.read a = m'.read a) → m = m'
  | [], [], _, _, _, _ => rfl
  | [], (k, c) :: m', lo, _, h', he => by
    have h' := wfFrom_cons.mp h'
    have := he k
    simp [read] at this
    exact absurd this.symm h'.2.2.1
  | (k, c) :: m, [], lo, h, _, he => by
    have h := wfFrom_cons.mp h
    have := he k
    simp [read] at this
    exact absurd this h.2.2.1
  | (k, c) :: m, (k', c') :: m', lo, h, h', he => by
    have g := wfFrom_cons.mp h
    have g' := wfFrom_cons.mp h'
    have hk : k = k' := by
      rcases Nat.lt_trichotomy k k' with hlt | heq | hlt
      · have z : Memory.read ((k', c') :: m') k = 0#8 :=
          read_below (lo := k + 1) (by rw [wfFrom_cons]; exact ⟨by omega, g'.2⟩) (by omega)
        have := he k
        rw [z] at this
        simp [read] at this
        exact absurd this g.2.2.1
      · exact heq
      · have z : Memory.read ((k, c) :: m) k' = 0#8 :=
          read_below (lo := k' + 1) (by rw [wfFrom_cons]; exact ⟨by omega, g.2⟩) (by omega)
        have := he k'
        rw [z] at this
        simp [read] at this
        exact absurd this.symm g'.2.2.1
    subst hk
    have hc : c = c' := by simpa [read] using he k
    subst hc
    have hm : m = m' := by
      refine ext_from g.2.2.2 g'.2.2.2 fun a => ?_
      by_cases ha : k = a
      · subst ha
        rw [read_below g.2.2.2 (by omega), read_below g'.2.2.2 (by omega)]
      · simpa [read, ha] using he a
    rw [hm]

/-- Two memories in canonical form that read alike are equal. -/
theorem Memory.ext {m m' : Memory} (h : m.wf = true) (h' : m'.wf = true) (he : ∀ a, m.read a = m'.read a) : m = m' :=
  ext_from h h' he

end Sys2Proof.Machine
end

