-- ==== Sys2Proof/Laws/State.lean ====
section
/-! SUPPORT. One lemma per field per named update of the state, so that no proof unfolds a record update. -/

namespace Sys2Proof.Machine

section
variable (s : State) (r : Index) (b : Byte)
@[simp] theorem State.writeV_mem : (s.writeV r b).mem = s.mem := rfl
@[simp] theorem State.writeV_v : (s.writeV r b).v = s.v.set r b := rfl
@[simp] theorem State.writeV_i : (s.writeV r b).i = s.i := rfl
@[simp] theorem State.writeV_pc : (s.writeV r b).pc = s.pc := rfl
@[simp] theorem State.writeV_stack : (s.writeV r b).stack = s.stack := rfl
@[simp] theorem State.writeV_sp : (s.writeV r b).sp = s.sp := rfl
@[simp] theorem State.writeV_dt : (s.writeV r b).dt = s.dt := rfl
@[simp] theorem State.writeV_st : (s.writeV r b).st = s.st := rfl
@[simp] theorem State.writeV_fb : (s.writeV r b).fb = s.fb := rfl
@[simp] theorem State.writeV_keys : (s.writeV r b).keys = s.keys := rfl
@[simp] theorem State.writeV_waiting : (s.writeV r b).waiting = s.waiting := rfl
@[simp] theorem State.writeV_waitTarget : (s.writeV r b).waitTarget = s.waitTarget := rfl
@[simp] theorem State.writeV_faulted : (s.writeV r b).faulted = s.faulted := rfl
@[simp] theorem State.writeV_faultCause : (s.writeV r b).faultCause = s.faultCause := rfl
@[simp] theorem State.writeV_faultInfo : (s.writeV r b).faultInfo = s.faultInfo := rfl
@[simp] theorem State.writeV_env : (s.writeV r b).env = s.env := rfl
end

section
variable (s : State) (x : Index)
@[simp] theorem State.loadThrough_mem : (s.loadThrough x).mem = s.mem := rfl
@[simp] theorem State.loadThrough_i : (s.loadThrough x).i = s.i := rfl
@[simp] theorem State.loadThrough_pc : (s.loadThrough x).pc = s.pc := rfl
@[simp] theorem State.loadThrough_stack : (s.loadThrough x).stack = s.stack := rfl
@[simp] theorem State.loadThrough_sp : (s.loadThrough x).sp = s.sp := rfl
@[simp] theorem State.loadThrough_dt : (s.loadThrough x).dt = s.dt := rfl
@[simp] theorem State.loadThrough_st : (s.loadThrough x).st = s.st := rfl
@[simp] theorem State.loadThrough_fb : (s.loadThrough x).fb = s.fb := rfl
@[simp] theorem State.loadThrough_keys : (s.loadThrough x).keys = s.keys := rfl
@[simp] theorem State.loadThrough_waiting : (s.loadThrough x).waiting = s.waiting := rfl
@[simp] theorem State.loadThrough_waitTarget : (s.loadThrough x).waitTarget = s.waitTarget := rfl
@[simp] theorem State.loadThrough_faulted : (s.loadThrough x).faulted = s.faulted := rfl
@[simp] theorem State.loadThrough_faultCause : (s.loadThrough x).faultCause = s.faultCause := rfl
@[simp] theorem State.loadThrough_faultInfo : (s.loadThrough x).faultInfo = s.faultInfo := rfl
@[simp] theorem State.loadThrough_env : (s.loadThrough x).env = s.env := rfl
end

section
variable (s : State) (a : Word)
@[simp] theorem State.setI_mem : (s.setI a).mem = s.mem := rfl
@[simp] theorem State.setI_v : (s.setI a).v = s.v := rfl
@[simp] theorem State.setI_i : (s.setI a).i = a := rfl
@[simp] theorem State.setI_pc : (s.setI a).pc = s.pc := rfl
@[simp] theorem State.setI_stack : (s.setI a).stack = s.stack := rfl
@[simp] theorem State.setI_sp : (s.setI a).sp = s.sp := rfl
@[simp] theorem State.setI_dt : (s.setI a).dt = s.dt := rfl
@[simp] theorem State.setI_st : (s.setI a).st = s.st := rfl
@[simp] theorem State.setI_fb : (s.setI a).fb = s.fb := rfl
@[simp] theorem State.setI_keys : (s.setI a).keys = s.keys := rfl
@[simp] theorem State.setI_waiting : (s.setI a).waiting = s.waiting := rfl
@[simp] theorem State.setI_waitTarget : (s.setI a).waitTarget = s.waitTarget := rfl
@[simp] theorem State.setI_faulted : (s.setI a).faulted = s.faulted := rfl
@[simp] theorem State.setI_faultCause : (s.setI a).faultCause = s.faultCause := rfl
@[simp] theorem State.setI_faultInfo : (s.setI a).faultInfo = s.faultInfo := rfl
@[simp] theorem State.setI_env : (s.setI a).env = s.env := rfl
end

section
variable (s : State) (a : Word)
@[simp] theorem State.setPc_mem : (s.setPc a).mem = s.mem := rfl
@[simp] theorem State.setPc_v : (s.setPc a).v = s.v := rfl
@[simp] theorem State.setPc_i : (s.setPc a).i = s.i := rfl
@[simp] theorem State.setPc_pc : (s.setPc a).pc = a := rfl
@[simp] theorem State.setPc_stack : (s.setPc a).stack = s.stack := rfl
@[simp] theorem State.setPc_sp : (s.setPc a).sp = s.sp := rfl
@[simp] theorem State.setPc_dt : (s.setPc a).dt = s.dt := rfl
@[simp] theorem State.setPc_st : (s.setPc a).st = s.st := rfl
@[simp] theorem State.setPc_fb : (s.setPc a).fb = s.fb := rfl
@[simp] theorem State.setPc_keys : (s.setPc a).keys = s.keys := rfl
@[simp] theorem State.setPc_waiting : (s.setPc a).waiting = s.waiting := rfl
@[simp] theorem State.setPc_waitTarget : (s.setPc a).waitTarget = s.waitTarget := rfl
@[simp] theorem State.setPc_faulted : (s.setPc a).faulted = s.faulted := rfl
@[simp] theorem State.setPc_faultCause : (s.setPc a).faultCause = s.faultCause := rfl
@[simp] theorem State.setPc_faultInfo : (s.setPc a).faultInfo = s.faultInfo := rfl
@[simp] theorem State.setPc_env : (s.setPc a).env = s.env := rfl
end

section
variable (s : State)
@[simp] theorem State.advance_mem : (s.advance).mem = s.mem := rfl
@[simp] theorem State.advance_v : (s.advance).v = s.v := rfl
@[simp] theorem State.advance_i : (s.advance).i = s.i := rfl
@[simp] theorem State.advance_pc : (s.advance).pc = s.pc + 2#16 := rfl
@[simp] theorem State.advance_stack : (s.advance).stack = s.stack := rfl
@[simp] theorem State.advance_sp : (s.advance).sp = s.sp := rfl
@[simp] theorem State.advance_dt : (s.advance).dt = s.dt := rfl
@[simp] theorem State.advance_st : (s.advance).st = s.st := rfl
@[simp] theorem State.advance_fb : (s.advance).fb = s.fb := rfl
@[simp] theorem State.advance_keys : (s.advance).keys = s.keys := rfl
@[simp] theorem State.advance_waiting : (s.advance).waiting = s.waiting := rfl
@[simp] theorem State.advance_waitTarget : (s.advance).waitTarget = s.waitTarget := rfl
@[simp] theorem State.advance_faulted : (s.advance).faulted = s.faulted := rfl
@[simp] theorem State.advance_faultCause : (s.advance).faultCause = s.faultCause := rfl
@[simp] theorem State.advance_faultInfo : (s.advance).faultInfo = s.faultInfo := rfl
@[simp] theorem State.advance_env : (s.advance).env = s.env := rfl
end

section
variable (s : State) (c : Bool)
@[simp] theorem State.skipIf_mem : (s.skipIf c).mem = s.mem := rfl
@[simp] theorem State.skipIf_v : (s.skipIf c).v = s.v := rfl
@[simp] theorem State.skipIf_i : (s.skipIf c).i = s.i := rfl
@[simp] theorem State.skipIf_pc : (s.skipIf c).pc = if c then s.pc + 4#16 else s.pc + 2#16 := rfl
@[simp] theorem State.skipIf_stack : (s.skipIf c).stack = s.stack := rfl
@[simp] theorem State.skipIf_sp : (s.skipIf c).sp = s.sp := rfl
@[simp] theorem State.skipIf_dt : (s.skipIf c).dt = s.dt := rfl
@[simp] theorem State.skipIf_st : (s.skipIf c).st = s.st := rfl
@[simp] theorem State.skipIf_fb : (s.skipIf c).fb = s.fb := rfl
@[simp] theorem State.skipIf_keys : (s.skipIf c).keys = s.keys := rfl
@[simp] theorem State.skipIf_waiting : (s.skipIf c).waiting = s.waiting := rfl
@[simp] theorem State.skipIf_waitTarget : (s.skipIf c).waitTarget = s.waitTarget := rfl
@[simp] theorem State.skipIf_faulted : (s.skipIf c).faulted = s.faulted := rfl
@[simp] theorem State.skipIf_faultCause : (s.skipIf c).faultCause = s.faultCause := rfl
@[simp] theorem State.skipIf_faultInfo : (s.skipIf c).faultInfo = s.faultInfo := rfl
@[simp] theorem State.skipIf_env : (s.skipIf c).env = s.env := rfl
end

section
variable (s : State) (b : Byte)
@[simp] theorem State.setDt_mem : (s.setDt b).mem = s.mem := rfl
@[simp] theorem State.setDt_v : (s.setDt b).v = s.v := rfl
@[simp] theorem State.setDt_i : (s.setDt b).i = s.i := rfl
@[simp] theorem State.setDt_pc : (s.setDt b).pc = s.pc := rfl
@[simp] theorem State.setDt_stack : (s.setDt b).stack = s.stack := rfl
@[simp] theorem State.setDt_sp : (s.setDt b).sp = s.sp := rfl
@[simp] theorem State.setDt_dt : (s.setDt b).dt = b := rfl
@[simp] theorem State.setDt_st : (s.setDt b).st = s.st := rfl
@[simp] theorem State.setDt_fb : (s.setDt b).fb = s.fb := rfl
@[simp] theorem State.setDt_keys : (s.setDt b).keys = s.keys := rfl
@[simp] theorem State.setDt_waiting : (s.setDt b).waiting = s.waiting := rfl
@[simp] theorem State.setDt_waitTarget : (s.setDt b).waitTarget = s.waitTarget := rfl
@[simp] theorem State.setDt_faulted : (s.setDt b).faulted = s.faulted := rfl
@[simp] theorem State.setDt_faultCause : (s.setDt b).faultCause = s.faultCause := rfl
@[simp] theorem State.setDt_faultInfo : (s.setDt b).faultInfo = s.faultInfo := rfl
@[simp] theorem State.setDt_env : (s.setDt b).env = s.env := rfl
end

section
variable (s : State) (b : Byte)
@[simp] theorem State.setSt_mem : (s.setSt b).mem = s.mem := rfl
@[simp] theorem State.setSt_v : (s.setSt b).v = s.v := rfl
@[simp] theorem State.setSt_i : (s.setSt b).i = s.i := rfl
@[simp] theorem State.setSt_pc : (s.setSt b).pc = s.pc := rfl
@[simp] theorem State.setSt_stack : (s.setSt b).stack = s.stack := rfl
@[simp] theorem State.setSt_sp : (s.setSt b).sp = s.sp := rfl
@[simp] theorem State.setSt_dt : (s.setSt b).dt = s.dt := rfl
@[simp] theorem State.setSt_st : (s.setSt b).st = b := rfl
@[simp] theorem State.setSt_fb : (s.setSt b).fb = s.fb := rfl
@[simp] theorem State.setSt_keys : (s.setSt b).keys = s.keys := rfl
@[simp] theorem State.setSt_waiting : (s.setSt b).waiting = s.waiting := rfl
@[simp] theorem State.setSt_waitTarget : (s.setSt b).waitTarget = s.waitTarget := rfl
@[simp] theorem State.setSt_faulted : (s.setSt b).faulted = s.faulted := rfl
@[simp] theorem State.setSt_faultCause : (s.setSt b).faultCause = s.faultCause := rfl
@[simp] theorem State.setSt_faultInfo : (s.setSt b).faultInfo = s.faultInfo := rfl
@[simp] theorem State.setSt_env : (s.setSt b).env = s.env := rfl
end

section
variable (s : State) (m : Memory)
@[simp] theorem State.setMem_mem : (s.setMem m).mem = m := rfl
@[simp] theorem State.setMem_v : (s.setMem m).v = s.v := rfl
@[simp] theorem State.setMem_i : (s.setMem m).i = s.i := rfl
@[simp] theorem State.setMem_pc : (s.setMem m).pc = s.pc := rfl
@[simp] theorem State.setMem_stack : (s.setMem m).stack = s.stack := rfl
@[simp] theorem State.setMem_sp : (s.setMem m).sp = s.sp := rfl
@[simp] theorem State.setMem_dt : (s.setMem m).dt = s.dt := rfl
@[simp] theorem State.setMem_st : (s.setMem m).st = s.st := rfl
@[simp] theorem State.setMem_fb : (s.setMem m).fb = s.fb := rfl
@[simp] theorem State.setMem_keys : (s.setMem m).keys = s.keys := rfl
@[simp] theorem State.setMem_waiting : (s.setMem m).waiting = s.waiting := rfl
@[simp] theorem State.setMem_waitTarget : (s.setMem m).waitTarget = s.waitTarget := rfl
@[simp] theorem State.setMem_faulted : (s.setMem m).faulted = s.faulted := rfl
@[simp] theorem State.setMem_faultCause : (s.setMem m).faultCause = s.faultCause := rfl
@[simp] theorem State.setMem_faultInfo : (s.setMem m).faultInfo = s.faultInfo := rfl
@[simp] theorem State.setMem_env : (s.setMem m).env = s.env := rfl
end

section
variable (s : State) (fb : Framebuffer)
@[simp] theorem State.setFb_mem : (s.setFb fb).mem = s.mem := rfl
@[simp] theorem State.setFb_v : (s.setFb fb).v = s.v := rfl
@[simp] theorem State.setFb_i : (s.setFb fb).i = s.i := rfl
@[simp] theorem State.setFb_pc : (s.setFb fb).pc = s.pc := rfl
@[simp] theorem State.setFb_stack : (s.setFb fb).stack = s.stack := rfl
@[simp] theorem State.setFb_sp : (s.setFb fb).sp = s.sp := rfl
@[simp] theorem State.setFb_dt : (s.setFb fb).dt = s.dt := rfl
@[simp] theorem State.setFb_st : (s.setFb fb).st = s.st := rfl
@[simp] theorem State.setFb_fb : (s.setFb fb).fb = fb := rfl
@[simp] theorem State.setFb_keys : (s.setFb fb).keys = s.keys := rfl
@[simp] theorem State.setFb_waiting : (s.setFb fb).waiting = s.waiting := rfl
@[simp] theorem State.setFb_waitTarget : (s.setFb fb).waitTarget = s.waitTarget := rfl
@[simp] theorem State.setFb_faulted : (s.setFb fb).faulted = s.faulted := rfl
@[simp] theorem State.setFb_faultCause : (s.setFb fb).faultCause = s.faultCause := rfl
@[simp] theorem State.setFb_faultInfo : (s.setFb fb).faultInfo = s.faultInfo := rfl
@[simp] theorem State.setFb_env : (s.setFb fb).env = s.env := rfl
end

section
variable (s : State) (a : Word) (h : s.sp.val < 16)
@[simp] theorem State.push_mem : (s.push a h).mem = s.mem := rfl
@[simp] theorem State.push_v : (s.push a h).v = s.v := rfl
@[simp] theorem State.push_i : (s.push a h).i = s.i := rfl
@[simp] theorem State.push_pc : (s.push a h).pc = s.pc := rfl
@[simp] theorem State.push_stack : (s.push a h).stack = s.stack.set s.sp.val a := rfl
@[simp] theorem State.push_sp : (s.push a h).sp = ⟨s.sp.val + 1, by omega⟩ := rfl
@[simp] theorem State.push_dt : (s.push a h).dt = s.dt := rfl
@[simp] theorem State.push_st : (s.push a h).st = s.st := rfl
@[simp] theorem State.push_fb : (s.push a h).fb = s.fb := rfl
@[simp] theorem State.push_keys : (s.push a h).keys = s.keys := rfl
@[simp] theorem State.push_waiting : (s.push a h).waiting = s.waiting := rfl
@[simp] theorem State.push_waitTarget : (s.push a h).waitTarget = s.waitTarget := rfl
@[simp] theorem State.push_faulted : (s.push a h).faulted = s.faulted := rfl
@[simp] theorem State.push_faultCause : (s.push a h).faultCause = s.faultCause := rfl
@[simp] theorem State.push_faultInfo : (s.push a h).faultInfo = s.faultInfo := rfl
@[simp] theorem State.push_env : (s.push a h).env = s.env := rfl
end

section
variable (s : State) (h : 0 < s.sp.val)
@[simp] theorem State.pop_mem : (s.pop h).mem = s.mem := rfl
@[simp] theorem State.pop_v : (s.pop h).v = s.v := rfl
@[simp] theorem State.pop_i : (s.pop h).i = s.i := rfl
@[simp] theorem State.pop_pc : (s.pop h).pc = s.stack[s.sp.val - 1] := rfl
@[simp] theorem State.pop_stack : (s.pop h).stack = s.stack.set (s.sp.val - 1) 0#16 := rfl
@[simp] theorem State.pop_sp : (s.pop h).sp = ⟨s.sp.val - 1, by omega⟩ := rfl
@[simp] theorem State.pop_dt : (s.pop h).dt = s.dt := rfl
@[simp] theorem State.pop_st : (s.pop h).st = s.st := rfl
@[simp] theorem State.pop_fb : (s.pop h).fb = s.fb := rfl
@[simp] theorem State.pop_keys : (s.pop h).keys = s.keys := rfl
@[simp] theorem State.pop_waiting : (s.pop h).waiting = s.waiting := rfl
@[simp] theorem State.pop_waitTarget : (s.pop h).waitTarget = s.waitTarget := rfl
@[simp] theorem State.pop_faulted : (s.pop h).faulted = s.faulted := rfl
@[simp] theorem State.pop_faultCause : (s.pop h).faultCause = s.faultCause := rfl
@[simp] theorem State.pop_faultInfo : (s.pop h).faultInfo = s.faultInfo := rfl
@[simp] theorem State.pop_env : (s.pop h).env = s.env := rfl
end

section
variable (s : State) (c : FaultCause) (w : Word)
@[simp] theorem State.raise_mem : (s.raise c w).mem = s.mem := rfl
@[simp] theorem State.raise_v : (s.raise c w).v = s.v := rfl
@[simp] theorem State.raise_i : (s.raise c w).i = s.i := rfl
@[simp] theorem State.raise_pc : (s.raise c w).pc = s.pc := rfl
@[simp] theorem State.raise_stack : (s.raise c w).stack = s.stack := rfl
@[simp] theorem State.raise_sp : (s.raise c w).sp = s.sp := rfl
@[simp] theorem State.raise_dt : (s.raise c w).dt = s.dt := rfl
@[simp] theorem State.raise_st : (s.raise c w).st = s.st := rfl
@[simp] theorem State.raise_fb : (s.raise c w).fb = s.fb := rfl
@[simp] theorem State.raise_keys : (s.raise c w).keys = s.keys := rfl
@[simp] theorem State.raise_waiting : (s.raise c w).waiting = s.waiting := rfl
@[simp] theorem State.raise_waitTarget : (s.raise c w).waitTarget = s.waitTarget := rfl
@[simp] theorem State.raise_faulted : (s.raise c w).faulted = true := rfl
@[simp] theorem State.raise_faultCause : (s.raise c w).faultCause = c := rfl
@[simp] theorem State.raise_faultInfo : (s.raise c w).faultInfo = w := rfl
@[simp] theorem State.raise_env : (s.raise c w).env = s.env := rfl
end

section
variable (s : State)
@[simp] theorem State.drawn_mem : (s.drawn).mem = s.mem := rfl
@[simp] theorem State.drawn_v : (s.drawn).v = s.v := rfl
@[simp] theorem State.drawn_i : (s.drawn).i = s.i := rfl
@[simp] theorem State.drawn_pc : (s.drawn).pc = s.pc := rfl
@[simp] theorem State.drawn_stack : (s.drawn).stack = s.stack := rfl
@[simp] theorem State.drawn_sp : (s.drawn).sp = s.sp := rfl
@[simp] theorem State.drawn_dt : (s.drawn).dt = s.dt := rfl
@[simp] theorem State.drawn_st : (s.drawn).st = s.st := rfl
@[simp] theorem State.drawn_fb : (s.drawn).fb = s.fb := rfl
@[simp] theorem State.drawn_keys : (s.drawn).keys = s.keys := rfl
@[simp] theorem State.drawn_waiting : (s.drawn).waiting = s.waiting := rfl
@[simp] theorem State.drawn_waitTarget : (s.drawn).waitTarget = s.waitTarget := rfl
@[simp] theorem State.drawn_faulted : (s.drawn).faulted = s.faulted := rfl
@[simp] theorem State.drawn_faultCause : (s.drawn).faultCause = s.faultCause := rfl
@[simp] theorem State.drawn_faultInfo : (s.drawn).faultInfo = s.faultInfo := rfl
@[simp] theorem State.drawn_env : (s.drawn).env = { s.env with draws := s.env.draws + 1 } := rfl
end

section
variable (s : State)
@[simp] theorem State.tick_mem : (s.tick).mem = s.mem := rfl
@[simp] theorem State.tick_v : (s.tick).v = s.v := rfl
@[simp] theorem State.tick_i : (s.tick).i = s.i := rfl
@[simp] theorem State.tick_pc : (s.tick).pc = s.pc := rfl
@[simp] theorem State.tick_stack : (s.tick).stack = s.stack := rfl
@[simp] theorem State.tick_sp : (s.tick).sp = s.sp := rfl
@[simp] theorem State.tick_dt : (s.tick).dt = countDown s.dt := rfl
@[simp] theorem State.tick_st : (s.tick).st = countDown s.st := rfl
@[simp] theorem State.tick_fb : (s.tick).fb = s.fb := rfl
@[simp] theorem State.tick_keys : (s.tick).keys = s.keys := rfl
@[simp] theorem State.tick_waiting : (s.tick).waiting = s.waiting := rfl
@[simp] theorem State.tick_waitTarget : (s.tick).waitTarget = s.waitTarget := rfl
@[simp] theorem State.tick_faulted : (s.tick).faulted = s.faulted := rfl
@[simp] theorem State.tick_faultCause : (s.tick).faultCause = s.faultCause := rfl
@[simp] theorem State.tick_faultInfo : (s.tick).faultInfo = s.faultInfo := rfl
@[simp] theorem State.tick_env : (s.tick).env = { s.env with beeps := if s.st = 1#8 then s.env.beeps + 1 else s.env.beeps } := rfl
end

section
variable (s : State) (x : Index)
@[simp] theorem State.beginWait_mem : (s.beginWait x).mem = s.mem := rfl
@[simp] theorem State.beginWait_v : (s.beginWait x).v = s.v := rfl
@[simp] theorem State.beginWait_i : (s.beginWait x).i = s.i := rfl
@[simp] theorem State.beginWait_pc : (s.beginWait x).pc = s.pc := rfl
@[simp] theorem State.beginWait_stack : (s.beginWait x).stack = s.stack := rfl
@[simp] theorem State.beginWait_sp : (s.beginWait x).sp = s.sp := rfl
@[simp] theorem State.beginWait_dt : (s.beginWait x).dt = s.dt := rfl
@[simp] theorem State.beginWait_st : (s.beginWait x).st = s.st := rfl
@[simp] theorem State.beginWait_fb : (s.beginWait x).fb = s.fb := rfl
@[simp] theorem State.beginWait_keys : (s.beginWait x).keys = s.keys := rfl
@[simp] theorem State.beginWait_waiting : (s.beginWait x).waiting = true := rfl
@[simp] theorem State.beginWait_waitTarget : (s.beginWait x).waitTarget = x := rfl
@[simp] theorem State.beginWait_faulted : (s.beginWait x).faulted = s.faulted := rfl
@[simp] theorem State.beginWait_faultCause : (s.beginWait x).faultCause = s.faultCause := rfl
@[simp] theorem State.beginWait_faultInfo : (s.beginWait x).faultInfo = s.faultInfo := rfl
@[simp] theorem State.beginWait_env : (s.beginWait x).env = s.env := rfl
end

section
variable (s : State) (k : Index)
@[simp] theorem State.endWait_mem : (s.endWait k).mem = s.mem := rfl
@[simp] theorem State.endWait_v : (s.endWait k).v = s.v.set s.waitTarget (BitVec.ofNat 8 k.val) := rfl
@[simp] theorem State.endWait_i : (s.endWait k).i = s.i := rfl
@[simp] theorem State.endWait_pc : (s.endWait k).pc = s.pc := rfl
@[simp] theorem State.endWait_stack : (s.endWait k).stack = s.stack := rfl
@[simp] theorem State.endWait_sp : (s.endWait k).sp = s.sp := rfl
@[simp] theorem State.endWait_dt : (s.endWait k).dt = s.dt := rfl
@[simp] theorem State.endWait_st : (s.endWait k).st = s.st := rfl
@[simp] theorem State.endWait_fb : (s.endWait k).fb = s.fb := rfl
@[simp] theorem State.endWait_keys : (s.endWait k).keys = s.keys := rfl
@[simp] theorem State.endWait_waiting : (s.endWait k).waiting = false := rfl
@[simp] theorem State.endWait_waitTarget : (s.endWait k).waitTarget = 0 := rfl
@[simp] theorem State.endWait_faulted : (s.endWait k).faulted = s.faulted := rfl
@[simp] theorem State.endWait_faultCause : (s.endWait k).faultCause = s.faultCause := rfl
@[simp] theorem State.endWait_faultInfo : (s.endWait k).faultInfo = s.faultInfo := rfl
@[simp] theorem State.endWait_env : (s.endWait k).env = s.env := rfl
end

section
variable (s : State) (keys : Keys)
@[simp] theorem State.setKeys_mem : (s.setKeys keys).mem = s.mem := rfl
@[simp] theorem State.setKeys_v : (s.setKeys keys).v = s.v := rfl
@[simp] theorem State.setKeys_i : (s.setKeys keys).i = s.i := rfl
@[simp] theorem State.setKeys_pc : (s.setKeys keys).pc = s.pc := rfl
@[simp] theorem State.setKeys_stack : (s.setKeys keys).stack = s.stack := rfl
@[simp] theorem State.setKeys_sp : (s.setKeys keys).sp = s.sp := rfl
@[simp] theorem State.setKeys_dt : (s.setKeys keys).dt = s.dt := rfl
@[simp] theorem State.setKeys_st : (s.setKeys keys).st = s.st := rfl
@[simp] theorem State.setKeys_fb : (s.setKeys keys).fb = s.fb := rfl
@[simp] theorem State.setKeys_keys : (s.setKeys keys).keys = keys := rfl
@[simp] theorem State.setKeys_waiting : (s.setKeys keys).waiting = s.waiting := rfl
@[simp] theorem State.setKeys_waitTarget : (s.setKeys keys).waitTarget = s.waitTarget := rfl
@[simp] theorem State.setKeys_faulted : (s.setKeys keys).faulted = s.faulted := rfl
@[simp] theorem State.setKeys_faultCause : (s.setKeys keys).faultCause = s.faultCause := rfl
@[simp] theorem State.setKeys_faultInfo : (s.setKeys keys).faultInfo = s.faultInfo := rfl
@[simp] theorem State.setKeys_env : (s.setKeys keys).env = s.env := rfl
end

section
variable (s : State)
@[simp] theorem State.noteInit_mem : (s.noteInit).mem = s.mem := rfl
@[simp] theorem State.noteInit_v : (s.noteInit).v = s.v := rfl
@[simp] theorem State.noteInit_i : (s.noteInit).i = s.i := rfl
@[simp] theorem State.noteInit_pc : (s.noteInit).pc = s.pc := rfl
@[simp] theorem State.noteInit_stack : (s.noteInit).stack = s.stack := rfl
@[simp] theorem State.noteInit_sp : (s.noteInit).sp = s.sp := rfl
@[simp] theorem State.noteInit_dt : (s.noteInit).dt = s.dt := rfl
@[simp] theorem State.noteInit_st : (s.noteInit).st = s.st := rfl
@[simp] theorem State.noteInit_fb : (s.noteInit).fb = s.fb := rfl
@[simp] theorem State.noteInit_keys : (s.noteInit).keys = s.keys := rfl
@[simp] theorem State.noteInit_waiting : (s.noteInit).waiting = s.waiting := rfl
@[simp] theorem State.noteInit_waitTarget : (s.noteInit).waitTarget = s.waitTarget := rfl
@[simp] theorem State.noteInit_faulted : (s.noteInit).faulted = s.faulted := rfl
@[simp] theorem State.noteInit_faultCause : (s.noteInit).faultCause = s.faultCause := rfl
@[simp] theorem State.noteInit_faultInfo : (s.noteInit).faultInfo = s.faultInfo := rfl
@[simp] theorem State.noteInit_env : (s.noteInit).env = { s.env with inited := true } := rfl
end

section
variable (s : State)
@[simp] theorem State.noteLoad_mem : (s.noteLoad).mem = s.mem := rfl
@[simp] theorem State.noteLoad_v : (s.noteLoad).v = s.v := rfl
@[simp] theorem State.noteLoad_i : (s.noteLoad).i = s.i := rfl
@[simp] theorem State.noteLoad_pc : (s.noteLoad).pc = s.pc := rfl
@[simp] theorem State.noteLoad_stack : (s.noteLoad).stack = s.stack := rfl
@[simp] theorem State.noteLoad_sp : (s.noteLoad).sp = s.sp := rfl
@[simp] theorem State.noteLoad_dt : (s.noteLoad).dt = s.dt := rfl
@[simp] theorem State.noteLoad_st : (s.noteLoad).st = s.st := rfl
@[simp] theorem State.noteLoad_fb : (s.noteLoad).fb = s.fb := rfl
@[simp] theorem State.noteLoad_keys : (s.noteLoad).keys = s.keys := rfl
@[simp] theorem State.noteLoad_waiting : (s.noteLoad).waiting = s.waiting := rfl
@[simp] theorem State.noteLoad_waitTarget : (s.noteLoad).waitTarget = s.waitTarget := rfl
@[simp] theorem State.noteLoad_faulted : (s.noteLoad).faulted = s.faulted := rfl
@[simp] theorem State.noteLoad_faultCause : (s.noteLoad).faultCause = s.faultCause := rfl
@[simp] theorem State.noteLoad_faultInfo : (s.noteLoad).faultInfo = s.faultInfo := rfl
@[simp] theorem State.noteLoad_env : (s.noteLoad).env = { s.env with loaded := true } := rfl
end

section
variable (s : State)
@[simp] theorem State.noteCycle_mem : (s.noteCycle).mem = s.mem := rfl
@[simp] theorem State.noteCycle_v : (s.noteCycle).v = s.v := rfl
@[simp] theorem State.noteCycle_i : (s.noteCycle).i = s.i := rfl
@[simp] theorem State.noteCycle_pc : (s.noteCycle).pc = s.pc := rfl
@[simp] theorem State.noteCycle_stack : (s.noteCycle).stack = s.stack := rfl
@[simp] theorem State.noteCycle_sp : (s.noteCycle).sp = s.sp := rfl
@[simp] theorem State.noteCycle_dt : (s.noteCycle).dt = s.dt := rfl
@[simp] theorem State.noteCycle_st : (s.noteCycle).st = s.st := rfl
@[simp] theorem State.noteCycle_fb : (s.noteCycle).fb = s.fb := rfl
@[simp] theorem State.noteCycle_keys : (s.noteCycle).keys = s.keys := rfl
@[simp] theorem State.noteCycle_waiting : (s.noteCycle).waiting = s.waiting := rfl
@[simp] theorem State.noteCycle_waitTarget : (s.noteCycle).waitTarget = s.waitTarget := rfl
@[simp] theorem State.noteCycle_faulted : (s.noteCycle).faulted = s.faulted := rfl
@[simp] theorem State.noteCycle_faultCause : (s.noteCycle).faultCause = s.faultCause := rfl
@[simp] theorem State.noteCycle_faultInfo : (s.noteCycle).faultInfo = s.faultInfo := rfl
@[simp] theorem State.noteCycle_env : (s.noteCycle).env = { s.env with cycled := true } := rfl
end

section
variable (s : State)
@[simp] theorem State.noteDisplay_mem : (s.noteDisplay).mem = s.mem := rfl
@[simp] theorem State.noteDisplay_v : (s.noteDisplay).v = s.v := rfl
@[simp] theorem State.noteDisplay_i : (s.noteDisplay).i = s.i := rfl
@[simp] theorem State.noteDisplay_pc : (s.noteDisplay).pc = s.pc := rfl
@[simp] theorem State.noteDisplay_stack : (s.noteDisplay).stack = s.stack := rfl
@[simp] theorem State.noteDisplay_sp : (s.noteDisplay).sp = s.sp := rfl
@[simp] theorem State.noteDisplay_dt : (s.noteDisplay).dt = s.dt := rfl
@[simp] theorem State.noteDisplay_st : (s.noteDisplay).st = s.st := rfl
@[simp] theorem State.noteDisplay_fb : (s.noteDisplay).fb = s.fb := rfl
@[simp] theorem State.noteDisplay_keys : (s.noteDisplay).keys = s.keys := rfl
@[simp] theorem State.noteDisplay_waiting : (s.noteDisplay).waiting = s.waiting := rfl
@[simp] theorem State.noteDisplay_waitTarget : (s.noteDisplay).waitTarget = s.waitTarget := rfl
@[simp] theorem State.noteDisplay_faulted : (s.noteDisplay).faulted = s.faulted := rfl
@[simp] theorem State.noteDisplay_faultCause : (s.noteDisplay).faultCause = s.faultCause := rfl
@[simp] theorem State.noteDisplay_faultInfo : (s.noteDisplay).faultInfo = s.faultInfo := rfl
@[simp] theorem State.noteDisplay_env : (s.noteDisplay).env = { s.env with frame := some s.fb } := rfl
end

section
variable (s : State)
@[simp] theorem State.taken_mem : (s.taken).mem = s.mem := rfl
@[simp] theorem State.taken_v : (s.taken).v = s.v := rfl
@[simp] theorem State.taken_i : (s.taken).i = s.i := rfl
@[simp] theorem State.taken_pc : (s.taken).pc = s.pc := rfl
@[simp] theorem State.taken_stack : (s.taken).stack = s.stack := rfl
@[simp] theorem State.taken_sp : (s.taken).sp = s.sp := rfl
@[simp] theorem State.taken_dt : (s.taken).dt = s.dt := rfl
@[simp] theorem State.taken_st : (s.taken).st = s.st := rfl
@[simp] theorem State.taken_fb : (s.taken).fb = s.fb := rfl
@[simp] theorem State.taken_keys : (s.taken).keys = s.keys := rfl
@[simp] theorem State.taken_waiting : (s.taken).waiting = s.waiting := rfl
@[simp] theorem State.taken_waitTarget : (s.taken).waitTarget = s.waitTarget := rfl
@[simp] theorem State.taken_faulted : (s.taken).faulted = s.faulted := rfl
@[simp] theorem State.taken_faultCause : (s.taken).faultCause = s.faultCause := rfl
@[simp] theorem State.taken_faultInfo : (s.taken).faultInfo = s.faultInfo := rfl
@[simp] theorem State.taken_env : (s.taken).env = { s.env with script := s.env.script.tail } := rfl
end

section
variable (s : State) (op : Word)
@[simp] theorem State.storeAtPc_mem : (s.storeAtPc op).mem = s.mem.writeBytes s.pc.toNat [highByte op, lowByte op] := rfl
@[simp] theorem State.storeAtPc_v : (s.storeAtPc op).v = s.v := rfl
@[simp] theorem State.storeAtPc_i : (s.storeAtPc op).i = s.i := rfl
@[simp] theorem State.storeAtPc_pc : (s.storeAtPc op).pc = s.pc := rfl
@[simp] theorem State.storeAtPc_stack : (s.storeAtPc op).stack = s.stack := rfl
@[simp] theorem State.storeAtPc_sp : (s.storeAtPc op).sp = s.sp := rfl
@[simp] theorem State.storeAtPc_dt : (s.storeAtPc op).dt = s.dt := rfl
@[simp] theorem State.storeAtPc_st : (s.storeAtPc op).st = s.st := rfl
@[simp] theorem State.storeAtPc_fb : (s.storeAtPc op).fb = s.fb := rfl
@[simp] theorem State.storeAtPc_keys : (s.storeAtPc op).keys = s.keys := rfl
@[simp] theorem State.storeAtPc_waiting : (s.storeAtPc op).waiting = s.waiting := rfl
@[simp] theorem State.storeAtPc_waitTarget : (s.storeAtPc op).waitTarget = s.waitTarget := rfl
@[simp] theorem State.storeAtPc_faulted : (s.storeAtPc op).faulted = s.faulted := rfl
@[simp] theorem State.storeAtPc_faultCause : (s.storeAtPc op).faultCause = s.faultCause := rfl
@[simp] theorem State.storeAtPc_faultInfo : (s.storeAtPc op).faultInfo = s.faultInfo := rfl
@[simp] theorem State.storeAtPc_env : (s.storeAtPc op).env = s.env := rfl
end

end Sys2Proof.Machine
end

