-- ==== Sys2Proof/Laws/Ops.lean ====
section
/-! SUPPORT. One lemma per shared operation: what it answers, so that no later proof unfolds it. -/

namespace Sys2Proof.Machine

/-! ### Operands and flags -/

/-- A zero-extended address keeps its value. -/
theorem toNat_zextAddr (nnn : Addr) : (zextAddr nnn).toNat = nnn.toNat := by
  simp [zextAddr]; omega

/-- A zero-extended byte keeps its value. -/
theorem toNat_zextByte (b : Byte) : (zextByte b).toNat = b.toNat := by
  simp [zextByte]; omega

/-- The flag of the subtractions, as a number. -/
theorem toNat_greaterFlag (a b : Byte) : (greaterFlag a b).toNat = if b.toNat < a.toNat then 1 else 0 := by
  unfold greaterFlag; by_cases h : b.toNat < a.toNat <;> simp [h, flagOf]

/-- The flag of `SHL`, as a number. -/
theorem toNat_and_eight : ∀ (a : Byte), (a &&& 8#8).toNat = if a.toNat / 8 % 2 = 1 then 8 else 0 := by
  decide

/-- A range fits in memory: it is empty, or its last byte is at 0xFFF or below. -/
theorem fits_iff (base : Word) (len : Nat) : fits base len = true ↔ len = 0 ∨ base.toNat + len - 1 ≤ 0xFFF := by
  simp [fits]

/-- `FAULT_INFO` of a range that leaves memory. -/
theorem toNat_firstOutside (base : Word) : (firstOutside base).toNat = max base.toNat 0x1000 := by
  unfold firstOutside; split <;> simp <;> omega

/-! ### Memory accesses -/

/-- In range, an access has its effect. -/
theorem accessing_fits (s t : State) (len : Nat) (h : fits s.i len = true) : s.accessing len t = t := by
  simp [State.accessing, h]

/-- Out of range, an access raises the fault. -/
theorem accessing_faults (s t : State) (len : Nat) (h : fits s.i len = false) :
    s.accessing len t = s.raise .memOutOfRange (firstOutside s.i) := by
  simp [State.accessing, h]

/-- Either the access has its effect or nothing but the latch changes. -/
theorem accessing_cases (s t : State) (len : Nat) :
    (fits s.i len = true ∧ s.accessing len t = t) ∨
    (fits s.i len = false ∧ s.accessing len t = s.raise .memOutOfRange (firstOutside s.i)) := by
  cases h : fits s.i len <;> simp [State.accessing, h]

/-- `V[0] .. V[x]` are x + 1 bytes. -/
theorem length_regsThrough (s : State) (x : Index) : (s.regsThrough x).length = x.val + 1 := by
  simp [State.regsThrough]

/-- The k-th of them is `V[k]`. -/
theorem getD_regsThrough (s : State) (x : Index) (k : Nat) (h : k ≤ x.val) :
    (s.regsThrough x).getD k 0#8 = s.v[k]'(by omega) := by
  simp [State.regsThrough, Nat.lt_succ_of_le h]

/-- Everything `LD [I], Vx` in range does. -/
theorem exec_storeRegs (x : Index) (s t : State) (hw : s.mem.wf = true) (h : s.i.toNat + x.val ≤ 0xFFF)
    (e : exec (.storeRegs x) s = .next t) :
    t.i = s.i ∧ t.pc = s.pc + 2#16 ∧
      (∀ a, t.mem.read a = if s.i.toNat ≤ a ∧ a < s.i.toNat + (x.val + 1) then (s.regsThrough x).getD (a - s.i.toNat) 0#8
        else s.mem.read a) ∧
      FrameExcept [.mem, .pc] s t := by
  have hf : fits s.i (x.val + 1) = true := by rw [fits_iff]; omega
  have hr := Memory.read_writeBytes (bs := s.regsThrough x) (a := s.i.toNat) hw (by simp [length_regsThrough, Config.memSize]; omega)
  rw [exec, execStoreRegs, accessing_fits _ _ _ hf] at e
  cases e
  refine ⟨rfl, rfl, ?_, ?_⟩
  · intro a
    simp only [State.advance_mem, State.setMem_mem, hr, length_regsThrough]
  · intro p hp; cases p <;> simp [Unchanged] at hp ⊢

/-! ### The rasterizer -/

/-- The row a sprite row falls on, as a number. -/
theorem spriteRow_val (vy : Byte) (k : Nat) : (spriteRow vy k).val = (vy.toNat + k) % 32 := rfl

/-- Every bit of a row mask: column 63 - p lies in the sprite byte, or the bit is 0. -/
theorem rowMask_bit (b : Byte) (col p : Nat) (hc : col < 64) (hp : p < 64) :
    (rowMask b col).getLsbD p = (decide ((63 - p + 64 - col) % 64 < 8) && b.getLsbD (7 - (63 - p + 64 - col) % 64)) := by
  unfold rowMask
  simp only
  split
  · simp only [BitVec.getLsbD_shiftLeft, BitVec.getLsbD_setWidth]
    by_cases h : (63 - p + 64 - col) % 64 < 8
    · have e1 : ¬ p < 56 - col := by omega
      have e2 : p - (56 - col) = 7 - (63 - p + 64 - col) % 64 := by omega
      have e3 : 7 - (63 - p + 64 - col) % 64 < 64 := by omega
      simp [h, e1, e2, hp, e3]
    · by_cases h1 : p < 56 - col
      · simp [h, h1]
      · have : 8 ≤ p - (56 - col) := by omega
        simp [h, BitVec.getLsbD_of_ge _ _ this]
  · simp only [BitVec.getLsbD_or, BitVec.getLsbD_shiftLeft, BitVec.getLsbD_ushiftRight, BitVec.getLsbD_setWidth]
    by_cases hlo : p < 64 - (col - 56)
    · by_cases h : (63 - p + 64 - col) % 64 < 8
      · have e2 : col - 56 + p = 7 - (63 - p + 64 - col) % 64 := by omega
        have e3 : col - 56 + p < 64 := by omega
        simp [h, hlo, e3]
        simp [e2]
      · have : 8 ≤ col - 56 + p := by omega
        simp [h, hlo, BitVec.getLsbD_of_ge _ _ this]
    · have h : (63 - p + 64 - col) % 64 < 8 := by omega
      have e2 : p - (64 - (col - 56)) = 7 - (63 - p + 64 - col) % 64 := by omega
      have e4 : b.getLsbD (col - 56 + p) = false := BitVec.getLsbD_of_ge _ _ (by omega)
      have e5 : 7 - (63 - p + 64 - col) % 64 < 64 := by omega
      simp [h, hlo, e2, e4, hp, e5]

/-- A row mask is blank only for a blank sprite byte. -/
theorem rowMask_eq_zero (b : Byte) (col : Nat) (hc : col < 64) (h : rowMask b col = 0#64) : b = 0#8 := by
  apply BitVec.eq_of_getLsbD_eq
  intro q hq
  have := congrArg (fun w => w.getLsbD (63 - (col + (7 - q)) % 64)) h
  simp only [BitVec.getLsbD_zero] at this
  rw [rowMask_bit b col _ hc (by omega)] at this
  have e : (63 - (63 - (col + (7 - q)) % 64) + 64 - col) % 64 = 7 - q := by omega
  have e2 : 7 - (7 - q) = q := by omega
  have e3 : 7 - q < 8 := by omega
  simpa [e, e2, e3] using this

/-- What the rasterizer leaves in every row. -/
theorem blit_row (col : Nat) (vy : Byte) : ∀ (bs : List Byte) (k : Nat) (fb : Framebuffer) (e : Bool) (r : Fin 32), k + bs.length ≤ 32 →
    (blit col vy bs k fb e).1[r] =
      if k ≤ (r.val + 256 - vy.toNat) % 32 ∧ (r.val + 256 - vy.toNat) % 32 < k + bs.length
      then fb[r] ^^^ rowMask (bs.getD ((r.val + 256 - vy.toNat) % 32 - k) 0#8) col else fb[r]
  | [], k, fb, e, r, _ => by
    rw [if_neg (by simp)]; rfl
  | b :: bs, k, fb, e, r, h => by
    have hv := vy.isLt
    have hr := r.isLt
    simp only [List.length_cons] at h ⊢
    rw [blit, blit_row col vy bs (k + 1) _ _ r (by omega)]
    by_cases hk : (r.val + 256 - vy.toNat) % 32 = k
    · have e1 : (spriteRow vy k).val = r.val := by rw [spriteRow_val]; omega
      have e2 : spriteRow vy k = r := Fin.ext e1
      rw [if_neg (by omega), if_pos (by omega)]
      simp [e2, hk]
    · have e1 : (spriteRow vy k).val ≠ r.val := by rw [spriteRow_val]; omega
      have e3 : (fb.set (spriteRow vy k) (fb[spriteRow vy k] ^^^ rowMask b col))[r] = fb[r] := by
        simp [e1]
      rw [e3]
      by_cases hin : k + 1 ≤ (r.val + 256 - vy.toNat) % 32 ∧ (r.val + 256 - vy.toNat) % 32 < k + 1 + bs.length
      · rw [if_pos hin, if_pos (by omega)]
        obtain ⟨d, hd⟩ : ∃ d, (r.val + 256 - vy.toNat) % 32 - k = d + 1 := ⟨(r.val + 256 - vy.toNat) % 32 - k - 1, by omega⟩
        have hd' : (r.val + 256 - vy.toNat) % 32 - (k + 1) = d := by omega
        rw [hd, hd', List.getD_cons_succ]
      · rw [if_neg hin, if_neg (by omega)]

/-- When the rasterizer reports a collision. -/
theorem blit_flag (col : Nat) (vy : Byte) : ∀ (bs : List Byte) (k : Nat) (fb : Framebuffer) (e : Bool), k + bs.length ≤ 32 →
    ((blit col vy bs k fb e).2 = true ↔
      e = true ∨ ∃ j < bs.length, fb[spriteRow vy (k + j)] &&& rowMask (bs.getD j 0#8) col ≠ 0#64)
  | [], k, fb, e, _ => by simp [blit]
  | b :: bs, k, fb, e, h => by
    simp only [List.length_cons] at h ⊢
    rw [blit, blit_flag col vy bs (k + 1) _ _ (by omega)]
    have hrow : ∀ j < bs.length, (fb.set (spriteRow vy k) (fb[spriteRow vy k] ^^^ rowMask b col))[spriteRow vy (k + 1 + j)] = fb[spriteRow vy (k + (j + 1))] := by
      intro j hj
      have e1 : (spriteRow vy k).val ≠ (spriteRow vy (k + 1 + j)).val := by simp only [spriteRow_val]; omega
      have e2 : k + 1 + j = k + (j + 1) := by omega
      simp only [Fin.getElem_fin]
      rw [Vector.getElem_set_ne (h := e1)]
      simp only [e2]
    constructor
    · rintro (h1 | ⟨j, hj, hne⟩)
      · rw [Bool.or_eq_true] at h1
        rcases h1 with h1 | h1
        · exact .inl h1
        · exact .inr ⟨0, by omega, by simpa using h1⟩
      · rw [hrow j hj] at hne
        exact .inr ⟨j + 1, by omega, by simpa using hne⟩
    · rintro (h1 | ⟨j, hj, hne⟩)
      · exact .inl (by simp [h1])
      · cases j with
        | zero => exact .inl (by simp at hne; simp [hne])
        | succ j =>
          refine .inr ⟨j, by omega, ?_⟩
          rw [hrow j (by omega)]
          simpa using hne

/-- What `DRW` leaves in every row. -/
theorem draw_row (s : State) (x y : Index) (n : Fin 16) (r : Fin 32) : (s.drawSprite x y n).1[r] =
   if (r.val + 256 - s.v[y].toNat) % 32 < n.val
          then s.fb[r] ^^^ rowMask (s.mem.read (s.i.toNat + (r.val + 256 - s.v[y].toNat) % 32)) (s.v[x].toNat % 64)
          else s.fb[r] := by
  rw [State.drawSprite, blit_row _ _ _ _ _ _ _ (by simp; omega)]
  simp only [Memory.length_readBytes, Nat.zero_add, Nat.zero_le, true_and, State.readV, Nat.sub_zero, spriteColumn]
  split
  · rw [Memory.getD_readBytes _ _ _ _ ‹_›]
  · rfl

/-- When `DRW` reports a collision. -/
theorem draw_flag (s : State) (x y : Index) (n : Fin 16) : (s.drawSprite x y n).2 = true ↔ ∃ k < n.val, collides s x y k := by
  rw [State.drawSprite, blit_flag _ _ _ _ _ _ (by simp; omega)]
  simp only [Memory.length_readBytes, Bool.false_eq_true, false_or, Nat.zero_add]
  constructor
  · rintro ⟨k, hk, h⟩
    rw [Memory.getD_readBytes _ _ _ _ hk] at h
    exact ⟨k, hk, h⟩
  · rintro ⟨k, hk, h⟩
    refine ⟨k, hk, ?_⟩
    rw [Memory.getD_readBytes _ _ _ _ hk]
    exact h

/-- `DRW` of a sprite that lies in memory. -/
theorem exec_drw (s : State) (x y : Index) (n : Fin 16) (h : spriteInMemory s n) :
    exec (.drw x y n) s = .next ((s.setFb (s.drawSprite x y n).1).writeV flagReg (flagOf (s.drawSprite x y n).2)).advance := by
  rw [exec, execDrw, accessing_fits _ _ _ ((fits_iff _ _).mpr h)]

/-! ### The fault table and the latch -/

/-- The fault table reads `V`, `I`, `SP` and `PC` only. -/
theorem faultOf_congr (i : Instr) {s t : State} (hv : ∀ r : Index, t.v[r] = s.v[r]) (hi : t.i = s.i) (hs : t.sp = s.sp)
    (hp : t.pc = s.pc) : faultOf i t = faultOf i s := by
  cases i <;> simp only [faultOf, hv, hi, hs, hp]

/-- With no fault latched the latch is clear. -/
theorem latch_clear {s : State} (h : latchMeaning s = true) (hf : s.faulted = false) :
    s.faultCause = .noFault ∧ s.faultInfo = 0#16 := by
  unfold latchMeaning at h
  cases hc : s.faultCause <;> simp [hc, hf] at h ⊢
  exact h

/-- A clear latch means what it should, whatever the rest of the state is. -/
theorem latchMeaning_clear {s : State} (hf : s.faulted = false) (hc : s.faultCause = .noFault) (hi : s.faultInfo = 0#16) :
    latchMeaning s = true := by
  simp [latchMeaning, hf, hc, hi]

/-- A latched fault of a cycle means what it should when the fault table still gives it. -/
theorem latchMeaning_cycleFault {s : State} (hf : s.faulted = true)
    (h : cycleFault s = some (s.faultCause, s.faultInfo.toNat)) (h0 : s.faultCause ≠ .noFault)
    (h6 : s.faultCause ≠ .loadTooLarge) : latchMeaning s = true := by
  unfold latchMeaning
  cases hc : s.faultCause <;> simp [hc, hf, h] at h0 h6 ⊢

/-! ### Frames and key edges -/

/-- A state is in every frame of itself. -/
theorem frame_refl (parts : List Part) (s : State) : FrameExcept parts s s := by
  intro p _; cases p <;> simp [Unchanged]

/-- Frames compose. -/
theorem frame_trans {parts : List Part} {s t u : State} (h1 : FrameExcept parts s t) (h2 : FrameExcept parts t u) :
    FrameExcept parts s u := by
  intro p hp
  have a := h1 p hp
  have b := h2 p hp
  cases p <;> simp only [Unchanged] at a b ⊢ <;> simp [a, b]

/-- The rising keys. -/
theorem mem_risingKeys (old new : Keys) (k : Index) : k ∈ risingKeys old new ↔ old[k] = false ∧ new[k] = true := by
  simp [risingKeys]

/-- There is none exactly when no key rises. -/
theorem risingKeys_nil (old new : Keys) :
    risingKeys old new = [] ↔ ¬ ∃ k : Index, old[k] = false ∧ new[k] = true := by
  simp [risingKeys, List.filter_eq_nil_iff]

/-- The delivered key is one of the rising ones, whatever the free choice is. -/
theorem selectKey_mem (k : Index) (ks : List Index) : selectKey k ks ∈ k :: ks := by
  cases ks with
  | nil => simp [selectKey]
  | cons a l =>
    simp only [selectKey]
    have : Config.keyPick (k :: a :: l) % (l.length + 2) < (k :: a :: l).length := Nat.mod_lt _ (by omega)
    rw [List.getD_eq_getElem _ _ this]
    exact List.getElem_mem this

end Sys2Proof.Machine
end

