-- ==== Sys2Proof/Laws/PerInstr.lean ====
section
/-! SUPPORT. Statements made per instruction: decoding the opcode of a well-formed instruction gives it back. -/

namespace Sys2Proof.Laws.RoundTrip

/-- 30_encoding.md R90 to R98. -/
def Statement (i : Instr) : Prop := i.wf = true → decode (encode i) = i

theorem cls : Statement (.cls) := fun _ => decode_cls (indexField 0)
theorem ret : Statement (.ret) := fun _ => decode_ret (indexField 0)
theorem jp (nnn : Addr) : Statement (.jp nnn) := fun _ => decode_jp nnn
theorem call (nnn : Addr) : Statement (.call nnn) := fun _ => decode_call nnn
theorem seImm (x : Index) (kk : Byte) : Statement (.seImm x kk) := fun _ => decode_seImm x kk
theorem sneImm (x : Index) (kk : Byte) : Statement (.sneImm x kk) := fun _ => decode_sneImm x kk
theorem seReg (x y : Index) : Statement (.seReg x y) := fun _ => decode_seReg x y 0x0#4
theorem ldImm (x : Index) (kk : Byte) : Statement (.ldImm x kk) := fun _ => decode_ldImm x kk
theorem addImm (x : Index) (kk : Byte) : Statement (.addImm x kk) := fun _ => decode_addImm x kk
theorem ldReg (x y : Index) : Statement (.ldReg x y) := fun _ => decode_ldReg x y
theorem orReg (x y : Index) : Statement (.orReg x y) := fun _ => decode_orReg x y
theorem andReg (x y : Index) : Statement (.andReg x y) := fun _ => decode_andReg x y
theorem xorReg (x y : Index) : Statement (.xorReg x y) := fun _ => decode_xorReg x y
theorem addReg (x y : Index) : Statement (.addReg x y) := fun _ => decode_addReg x y
theorem sub (x y : Index) : Statement (.sub x y) := fun _ => decode_sub x y
theorem shr (x : Index) : Statement (.shr x) := fun _ => decode_shr x (indexField 0)
theorem subn (x y : Index) : Statement (.subn x y) := fun _ => decode_subn x y
theorem shl (x : Index) : Statement (.shl x) := fun _ => decode_shl x (indexField 0)
theorem sneReg (x y : Index) : Statement (.sneReg x y) := fun _ => decode_sneReg x y 0x0#4
theorem ldI (nnn : Addr) : Statement (.ldI nnn) := fun _ => decode_ldI nnn
theorem jpV0 (nnn : Addr) : Statement (.jpV0 nnn) := fun _ => decode_jpV0 nnn
theorem rnd (x : Index) (kk : Byte) : Statement (.rnd x kk) := fun _ => decode_rnd x kk
theorem drw (x y : Index) (n : Fin 16) : Statement (.drw x y n) := fun _ => decode_drw x y n
theorem skp (x : Index) : Statement (.skp x) := fun _ => decode_skp x
theorem sknp (x : Index) : Statement (.sknp x) := fun _ => decode_sknp x
theorem ldVxDt (x : Index) : Statement (.ldVxDt x) := fun _ => decode_ldVxDt x
theorem ldVxK (x : Index) : Statement (.ldVxK x) := fun _ => decode_ldVxK x
theorem ldDtVx (x : Index) : Statement (.ldDtVx x) := fun _ => decode_ldDtVx x
theorem ldStVx (x : Index) : Statement (.ldStVx x) := fun _ => decode_ldStVx x
theorem addI (x : Index) : Statement (.addI x) := fun _ => decode_addI x
theorem ldF (x : Index) : Statement (.ldF x) := fun _ => decode_ldF x
theorem ldB (x : Index) : Statement (.ldB x) := fun _ => decode_ldB x
theorem storeRegs (x : Index) : Statement (.storeRegs x) := fun _ => decode_storeRegs x
theorem loadRegs (x : Index) : Statement (.loadRegs x) := fun _ => decode_loadRegs x

/-- An unassigned opcode, by its group: the low byte or nibble is none of the assigned ones (R100). -/
theorem unrecognized (op : Word) : Statement (.unrecognized op) := fun h => decode_of_unassigned op h

end Sys2Proof.Laws.RoundTrip
end

