-- ==== Sys2Proof/Laws/Step.lean ====
section
/-! SUPPORT. What a cycle and a step are, case by case, so that no later proof unfolds them. -/

namespace Sys2Proof.Machine

/-! ### The timer tick and what follows a handler -/

/-- A timer's count, as a number. -/
theorem toNat_countDown (b : Byte) : (countDown b).toNat = b.toNat - 1 := by
  unfold countDown
  split
  · next h => simp [h]
  · next h =>
    have h0 : b.toNat ≠ 0 := fun e => h (BitVec.eq_of_toNat_eq (by simpa using e))
    have := b.isLt
    rw [BitVec.toNat_sub]
    simp
    omega

/-- After a fault nothing more happens in the cycle. -/
theorem finish_of_faulted (s : State) (h : s.faulted = true) : s.finish = s := by simp [State.finish, h]

/-- Without a fault the timers tick. -/
theorem finish_of_ok (s : State) (h : s.faulted = false) : s.finish = s.tick := by simp [State.finish, h]

/-- Everything a tick does. -/
theorem tick_spec (s : State) :
    s.tick.dt.toNat = s.dt.toNat - 1 ∧ s.tick.st.toNat = s.st.toNat - 1 ∧
      s.tick.env = { s.env with beeps := if s.st = 1#8 then s.env.beeps + 1 else s.env.beeps } ∧
      FrameExcept [.dt, .st, .env] s s.tick := by
  refine ⟨toNat_countDown _, toNat_countDown _, rfl, ?_⟩
  intro p hp; cases p <;> simp [Unchanged] at hp ⊢

/-! ### The cycle -/

/-- A running machine whose `PC` is in range runs the instruction there. -/
theorem cycle_running {s t : State} (h : s.running) (hp : s.pc.toNat ≤ 0xFFE) (e : exec (decode s.fetch) s = .next t) :
    cycle s = .next t.finish := by
  have h1 : ¬ Config.lastFetchAddress < s.pc.toNat := by simp [Config.lastFetchAddress]; omega
  simp [cycle, h.1, h.2, h1, e]

/-- A running machine whose `PC` is out of range faults. -/
theorem cycle_outOfRange {s : State} (h : s.running) (hp : 0xFFE < s.pc.toNat) :
    cycle s = .next (s.raise .fetchOutOfRange s.pc) := by
  have h1 : Config.lastFetchAddress < s.pc.toNat := hp
  simp [cycle, h.1, h.2, h1]

/-- The cases of a cycle that answers a next state. -/
theorem cycle_cases {s u : State} (e : cycle s = .next u) :
    ((s.faulted = true ∨ s.waiting = true) ∧ u = s) ∨
    (s.running ∧ 0xFFE < s.pc.toNat ∧ u = s.raise .fetchOutOfRange s.pc) ∨
    (s.running ∧ s.pc.toNat ≤ 0xFFE ∧ ∃ t, exec (decode s.fetch) s = .next t ∧ u = t.finish) := by
  unfold cycle at e
  split at e
  · next h => cases e; exact .inl ⟨.inl h, rfl⟩
  split at e
  · next h => cases e; exact .inl ⟨.inr h, rfl⟩
  next hf hw =>
  have hr : s.running := ⟨by simpa using hf, by simpa using hw⟩
  split at e
  · next h => cases e; exact .inr (.inl ⟨hr, h, rfl⟩)
  next hp =>
  refine .inr (.inr ⟨hr, by simpa [Config.lastFetchAddress] using hp, ?_⟩)
  split at e
  · next t ht => cases e; exact ⟨t, ht, rfl⟩
  · cases e
  · cases e

/-! ### The step -/

/-- A step performs the host's next transaction. -/
theorem step_eq (s : State) : step s = transact s.nextTransaction s.taken := rfl

/-- When that is `cycle`, the step is the cycle of the machine with the transaction taken and noted. -/
theorem step_cycle {s : State} (h : hostCycles s) : step s = cycle (begun s) := by
  have e : s.nextTransaction = .cycle := by
    unfold State.nextTransaction
    rcases h with h | h
    · simp [h]
    · cases hs : s.env.script with
      | nil => rfl
      | cons a l => simpa [hs] using h
  rw [step, e]
  rfl

/-- With nothing scripted the host issues `cycle`. -/
theorem step_unscripted {s : State} (h : s.env.script = []) : step s = cycle s.noteCycle := by
  rw [step_cycle (.inl h)]
  have e : s.env.script.tail = s.env.script := by simp [h]
  simp [begun, State.noteCycle, e]

/-- One step of a run. -/
theorem run_succ (n : Nat) {s t : State} (h : step s = .next t) :
    Host.Core.run Sys2Proof.core (n + 1) s = Host.Core.run Sys2Proof.core n t := by
  have : Sys2Proof.core.step s = .next t := h
  simp only [Host.Core.run, this]

/-- The cases of a transaction that answers a next state. -/
theorem transact_cases {tr : Transaction} {s u : State} (e : transact tr s = .next u) :
    (tr = .reset ∧ u = s.restart) ∨
    (tr = .init ∧ s.env.inited = false ∧ s.env.cycled = false ∧ u = s.init.noteInit) ∨
    (∃ bytes, tr = .load bytes ∧ s.env.loaded = false ∧ s.env.cycled = false ∧ u = (s.load bytes).noteLoad) ∨
    (∃ keys, tr = .updateInput keys ∧ u = s.updateInput keys) ∨
    (tr = .cycle ∧ cycle s.noteCycle = .next u) ∨
    (tr = .display ∧ u = s.noteDisplay) := by
  cases tr with
  | reset => cases e; simp
  | init =>
    simp only [transact] at e
    split at e
    · cases e
    · next h => cases e; simp at h; simp [h]
  | load bytes =>
    simp only [transact] at e
    split at e
    · cases e
    · next h => cases e; simp at h; simp [h]
  | updateInput keys => cases e; simp
  | cycle => simpa [transact] using e
  | display => cases e; simp

/-! ### The boot transactions -/

/-- The font has 80 bytes. -/
theorem length_fontBytes (glyphs : Vector Byte 75) : (fontBytes glyphs).length = 80 := by simp [fontBytes, glyphZero]

/-- `init` while no fault is latched. -/
theorem initWith_ok (glyphs : Vector Byte 75) {s : State} (hf : s.faulted = false) :
    s.initWith glyphs = s.setMem (s.mem.writeBytes Config.fontBase (fontBytes glyphs)) := by
  simp [State.initWith, hf]

/-- `load` of a program that fits, while no fault is latched. -/
theorem load_ok {bytes : List Byte} {s : State} (hf : s.faulted = false) (hl : bytes.length ≤ 3584) :
    s.load bytes = s.setMem (s.mem.writeBytes Config.programBase bytes) := by
  have h1 : ¬ Config.maxProgramBytes < bytes.length := by simp only [Config.maxProgramBytes]; omega
  simp [State.load, hf, h1]

/-- `load` of a program that does not fit, while no fault is latched. -/
theorem load_tooLarge {bytes : List Byte} {s : State} (hf : s.faulted = false) (hl : 3584 < bytes.length) :
    s.load bytes = s.raise .loadTooLarge (loadInfo bytes.length) := by
  rw [State.load, hf, if_neg (by decide), if_pos (show Config.maxProgramBytes < bytes.length from hl)]

end Sys2Proof.Machine
end

