-- ==== Sys2Proof/Tests/Slice0.lean ====
section
/-! SUPPORT. Tests of this model. Expected results come from spec/95_test_vectors.md (each test names its vector) or from
the encoding table of 30_encoding.md R94; none is the model's own answer. Then, for every statement with hypotheses, a
witness that meets them together. -/

open Sys2Proof Sys2Proof.Machine

namespace Sys2Proof.Tests

/-! ### Well-formedness refuses an unassigned term in every group -/

theorem test_wf_refuses_assigned_group_0 : (Instr.unrecognized 0x0AE0).wf = false ∧ (Instr.unrecognized 0x00EE).wf = false := by
  decide
theorem test_wf_refuses_assigned_group_8 : (Instr.unrecognized 0x8127).wf = false ∧ (Instr.unrecognized 0x800E).wf = false := by
  decide
theorem test_wf_refuses_assigned_group_E : (Instr.unrecognized 0xE39E).wf = false ∧ (Instr.unrecognized 0xE0A1).wf = false := by
  decide
theorem test_wf_refuses_assigned_group_F : (Instr.unrecognized 0xF107).wf = false ∧ (Instr.unrecognized 0xF065).wf = false := by
  decide
theorem test_wf_refuses_other_groups : (Instr.unrecognized 0x1000).wf = false ∧ (Instr.unrecognized 0xDFFF).wf = false := by
  decide
/-- T40-7: the unrecognized opcodes of the vectors. -/
theorem test_wf_accepts_unassigned :
    ([0x8128, 0xE19F, 0xF1FF, 0x0123, 0x0000, 0x812F].all fun op => (Instr.unrecognized op).wf) = true := by decide

/-! ### Decoding: one word of every row of R94, written out digit by digit from its encoding -/

theorem test_decode_cls : decode (0b0000#4 ++ 0b0000#4 ++ 0b1110#4 ++ 0b0000#4) = .cls := by decide
theorem test_decode_ret : decode (0b0000#4 ++ 0b0000#4 ++ 0b1110#4 ++ 0b1110#4) = .ret := by decide
theorem test_decode_jp : decode (0b0001#4 ++ 0b1010#4 ++ 0b1011#4 ++ 0b1100#4) = .jp 0xABC := by decide
theorem test_decode_call : decode (0b0010#4 ++ 0b0100#4 ++ 0b0000#4 ++ 0b0001#4) = .call 0x401 := by decide
theorem test_decode_seImm : decode (0b0011#4 ++ 0b0011#4 ++ 0b0010#4 ++ 0b1010#4) = .seImm 3 0x2A := by decide
theorem test_decode_sneImm : decode (0b0100#4 ++ 0b0011#4 ++ 0b0010#4 ++ 0b1010#4) = .sneImm 3 0x2A := by decide
theorem test_decode_seReg : decode (0b0101#4 ++ 0b0001#4 ++ 0b0010#4 ++ 0b1111#4) = .seReg 1 2 := by decide
theorem test_decode_ldImm : decode (0b0110#4 ++ 0b1010#4 ++ 0b0111#4 ++ 0b1100#4) = .ldImm 10 0x7C := by decide
theorem test_decode_addImm : decode (0b0111#4 ++ 0b0001#4 ++ 0b0000#4 ++ 0b0101#4) = .addImm 1 5 := by decide
theorem test_decode_ldReg : decode (0b1000#4 ++ 0b0001#4 ++ 0b0010#4 ++ 0b0000#4) = .ldReg 1 2 := by decide
theorem test_decode_orReg : decode (0b1000#4 ++ 0b0001#4 ++ 0b0010#4 ++ 0b0001#4) = .orReg 1 2 := by decide
theorem test_decode_andReg : decode (0b1000#4 ++ 0b0001#4 ++ 0b0010#4 ++ 0b0010#4) = .andReg 1 2 := by decide
theorem test_decode_xorReg : decode (0b1000#4 ++ 0b0001#4 ++ 0b0010#4 ++ 0b0011#4) = .xorReg 1 2 := by decide
theorem test_decode_addReg : decode (0b1000#4 ++ 0b0001#4 ++ 0b0010#4 ++ 0b0100#4) = .addReg 1 2 := by decide
theorem test_decode_sub : decode (0b1000#4 ++ 0b0001#4 ++ 0b0010#4 ++ 0b0101#4) = .sub 1 2 := by decide
theorem test_decode_shr : decode (0b1000#4 ++ 0b0010#4 ++ 0b0111#4 ++ 0b0110#4) = .shr 2 := by decide
theorem test_decode_subn : decode (0b1000#4 ++ 0b0001#4 ++ 0b0010#4 ++ 0b0111#4) = .subn 1 2 := by decide
theorem test_decode_shl : decode (0b1000#4 ++ 0b0010#4 ++ 0b0111#4 ++ 0b1110#4) = .shl 2 := by decide
theorem test_decode_sneReg : decode (0b1001#4 ++ 0b0001#4 ++ 0b0010#4 ++ 0b1111#4) = .sneReg 1 2 := by decide
theorem test_decode_ldI : decode (0b1010#4 ++ 0b0001#4 ++ 0b0010#4 ++ 0b0011#4) = .ldI 0x123 := by decide
theorem test_decode_jpV0 : decode (0b1011#4 ++ 0b0011#4 ++ 0b0000#4 ++ 0b0001#4) = .jpV0 0x301 := by decide
theorem test_decode_rnd : decode (0b1100#4 ++ 0b0011#4 ++ 0b0000#4 ++ 0b1111#4) = .rnd 3 0x0F := by decide
theorem test_decode_drw : decode (0b1101#4 ++ 0b0001#4 ++ 0b0010#4 ++ 0b1111#4) = .drw 1 2 15 := by decide
theorem test_decode_skp : decode (0b1110#4 ++ 0b0100#4 ++ 0b1001#4 ++ 0b1110#4) = .skp 4 := by decide
theorem test_decode_sknp : decode (0b1110#4 ++ 0b0100#4 ++ 0b1010#4 ++ 0b0001#4) = .sknp 4 := by decide
theorem test_decode_ldVxDt : decode (0b1111#4 ++ 0b0011#4 ++ 0b0000#4 ++ 0b0111#4) = .ldVxDt 3 := by decide
theorem test_decode_ldVxK : decode (0b1111#4 ++ 0b0010#4 ++ 0b0000#4 ++ 0b1010#4) = .ldVxK 2 := by decide
theorem test_decode_ldDtVx : decode (0b1111#4 ++ 0b0001#4 ++ 0b0001#4 ++ 0b0101#4) = .ldDtVx 1 := by decide
theorem test_decode_ldStVx : decode (0b1111#4 ++ 0b0001#4 ++ 0b0001#4 ++ 0b1000#4) = .ldStVx 1 := by decide
theorem test_decode_addI : decode (0b1111#4 ++ 0b0001#4 ++ 0b0001#4 ++ 0b1110#4) = .addI 1 := by decide
theorem test_decode_ldF : decode (0b1111#4 ++ 0b0001#4 ++ 0b0010#4 ++ 0b1001#4) = .ldF 1 := by decide
theorem test_decode_ldB : decode (0b1111#4 ++ 0b0100#4 ++ 0b0011#4 ++ 0b0011#4) = .ldB 4 := by decide
theorem test_decode_storeRegs : decode (0b1111#4 ++ 0b0010#4 ++ 0b0101#4 ++ 0b0101#4) = .storeRegs 2 := by decide
theorem test_decode_loadRegs : decode (0b1111#4 ++ 0b0010#4 ++ 0b0110#4 ++ 0b0101#4) = .loadRegs 2 := by decide
theorem test_decode_unrecognized :
    decode (0b1000#4 ++ 0b0001#4 ++ 0b0010#4 ++ 0b1000#4) = .unrecognized 0x8128 := by decide
/-- R63, R90: the byte at the lower address is the high one; one byte is no instruction. -/
theorem test_decode_big_endian :
    decodeBytes [0x60, 0x0A, 0x70] = .ok (.ldImm 0 0x0A, [0x70]) ∧ decodeBytes [0x60] = .error .truncated := by decide

/-! ### One step, from the vectors -/

/-- The next state of a step, seen through `f`, with the opcode `op` at `PC`. -/
def ran {α : Type} (op : Nat) (s : State) (f : State → α) : Option α :=
  match step (s.withFetchWord 16 op) with
  | .next t => some (f t)
  | .fault _ => none
  | .refused _ => none

/-- The next state of a transaction, seen through `f`. -/
def did {α : Type} (tr : Transaction) (s : State) (f : State → α) : Option α :=
  match transact tr s with
  | .next t => some (f t)
  | .fault _ => none
  | .refused _ => none

/-- Reset with some general registers set. -/
def withRegs (l : List (Index × Byte)) : State := l.foldl (fun s p => s.writeV p.1 p.2) State.reset

/-- Key `k` alone is held. -/
def onlyKey (k : Index) : Keys := (Vector.replicate 16 false).set k true

/-- The latch. -/
def latch (t : State) : Bool × FaultCause × Word := (t.faulted, t.faultCause, t.faultInfo)

/-- T40-1. -/
theorem test_unrecognized_ticks :
    ran 0x0000 { State.reset with dt := 3, st := 1 } (fun t => (t.pc, t.dt, t.st, t.env.beeps)) = some (0x200, 2, 0, 1) := by
  decide
/-- T40-3. -/
theorem test_fetch_out_of_range :
    did .cycle { State.reset with pc := 0xFFF, dt := 3 } (fun t => (latch t, t.pc, t.dt)) =
      some ((true, .fetchOutOfRange, 0xFFF), 0xFFF, 3) := by decide
/-- T40-5. -/
theorem test_odd_fetch : ran 0x6007 { State.reset with pc := 0x201 } (fun t => (t.v[0], t.pc)) = some (7, 0x203) := by decide
/-- T40-10. -/
theorem test_timers_stop_at_zero : ran 0x6000 State.reset (fun t => (t.dt, t.st, t.env.beeps)) = some (0, 0, 0) := by decide
/-- T41-1. -/
theorem test_jp : ran 0x1ABC State.reset (fun t => t.pc) = some 0xABC := by decide
/-- T41-4. -/
theorem test_call_last_slot :
    ran 0x2400 { State.reset with pc := 0x300, sp := 15 } (fun t => (t.stack[15], t.sp, t.pc)) = some (0x302, 16, 0x400) := by
  decide
/-- T41-5. -/
theorem test_call_overflow :
    ran 0x2400 { State.reset with pc := 0x300, sp := 16 } (fun t => (latch t, t.sp, t.pc)) =
      some ((true, .stackOverflow, 0x300), 16, 0x300) := by decide
/-- T41-6. -/
theorem test_ret_empty :
    ran 0x00EE { State.reset with pc := 0x300, dt := 1 } (fun t => (t.pc, t.sp, t.dt)) = some (0x300, 0, 0) := by decide
/-- T41-7. -/
theorem test_ret :
    ran 0x00EE { State.reset with pc := 0x300, sp := 2, stack := (State.reset.stack.set 0 0x204).set 1 0x250 }
      (fun t => (t.sp, t.pc, t.stack[0], t.stack[1])) = some (1, 0x250, 0x204, 0) := by decide
/-- T41-9. -/
theorem test_seImm :
    ran 0x332A { withRegs [(3, 0x2A)] with pc := 0x300 } (fun t => t.pc) = some 0x304 ∧
    ran 0x332B { withRegs [(3, 0x2A)] with pc := 0x300 } (fun t => t.pc) = some 0x302 := by decide
/-- T41-10. -/
theorem test_sneImm :
    ran 0x432A { withRegs [(3, 0x2A)] with pc := 0x300 } (fun t => t.pc) = some 0x302 ∧
    ran 0x432B { withRegs [(3, 0x2A)] with pc := 0x300 } (fun t => t.pc) = some 0x304 := by decide
/-- T41-11, T41-12. -/
theorem test_seReg :
    ran 0x5120 (withRegs [(1, 7), (2, 7)]) (fun t => t.pc) = some 0x204 ∧
    ran 0x5120 (withRegs [(1, 7), (2, 8)]) (fun t => t.pc) = some 0x202 := by decide
/-- T41-11, T41-12. -/
theorem test_sneReg :
    ran 0x9120 (withRegs [(1, 7), (2, 7)]) (fun t => t.pc) = some 0x202 ∧
    ran 0x9120 (withRegs [(1, 7), (2, 8)]) (fun t => t.pc) = some 0x204 := by decide
/-- T41-17. -/
theorem test_jpV0 : ran 0xBFFF (withRegs [(0, 0xFF)]) (fun t => t.pc) = some 0x10FE := by decide
/-- T42-1. -/
theorem test_ldImm : ran 0x6A7C State.reset (fun t => (t.v[10], t.pc)) = some (0x7C, 0x202) := by decide
/-- T42-3. -/
theorem test_addImm_no_flag : ran 0x7101 (withRegs [(1, 0xFF)]) (fun t => (t.v[1], t.v[15])) = some (0, 0) := by decide
/-- T42-5. -/
theorem test_ldReg : ran 0x8120 (withRegs [(2, 0x33)]) (fun t => (t.v[1], t.v[2])) = some (0x33, 0x33) := by decide
/-- T42-6. -/
theorem test_orReg :
    ran 0x8121 (withRegs [(1, 0x0F), (2, 0xF0), (15, 1)]) (fun t => (t.v[1], t.v[15])) = some (0xFF, 1) := by decide
/-- T42-7. -/
theorem test_andReg : ran 0x8122 (withRegs [(1, 0x3C), (2, 0x0F)]) (fun t => t.v[1]) = some 0x0C := by decide
/-- T42-8. -/
theorem test_xorReg : ran 0x8123 (withRegs [(1, 0xFF), (2, 0x0F)]) (fun t => t.v[1]) = some 0xF0 := by decide
/-- T42-11. -/
theorem test_addReg_keeps_flag :
    ran 0x8014 (withRegs [(0, 1), (1, 1), (15, 1)]) (fun t => (t.v[0], t.v[15])) = some (2, 1) := by decide
/-- T42-15, T42-16. -/
theorem test_addReg_into_vf :
    ran 0x8F14 (withRegs [(15, 0xF0), (1, 0x20)]) (fun t => t.v[15]) = some 1 ∧
    ran 0x8F14 (withRegs [(15, 0x10), (1, 0x20)]) (fun t => t.v[15]) = some 0x30 := by decide
/-- T42-19, T42-20. -/
theorem test_sub :
    ran 0x8015 (withRegs [(0, 3), (1, 5)]) (fun t => (t.v[0], t.v[15])) = some (0xFE, 0) ∧
    ran 0x8015 (withRegs [(0, 7), (1, 7), (15, 1)]) (fun t => (t.v[0], t.v[15])) = some (0, 0) := by decide
/-- T42-21, T42-23. -/
theorem test_sub_with_vf :
    ran 0x80F5 (withRegs [(0, 5), (15, 3)]) (fun t => (t.v[0], t.v[15])) = some (4, 1) ∧
    ran 0x8F15 (withRegs [(15, 9), (1, 4)]) (fun t => t.v[15]) = some 0xFD := by decide
/-- T42-25. -/
theorem test_subn : ran 0x8017 (withRegs [(0, 3), (1, 5)]) (fun t => (t.v[0], t.v[1], t.v[15])) = some (2, 5, 1) := by decide
/-- T42-28, T42-29. -/
theorem test_subn_with_vf :
    ran 0x80F7 (withRegs [(0, 2), (15, 9)]) (fun t => (t.v[0], t.v[15])) = some (0xFF, 1) ∧
    ran 0x8F17 (withRegs [(15, 2), (1, 9)]) (fun t => t.v[15]) = some 8 := by decide
/-- T42-31. -/
theorem test_shr_ignores_y :
    ran 0x8276 (withRegs [(2, 0x80), (7, 0xFF)]) (fun t => (t.v[2], t.v[15], t.v[7])) = some (0x40, 0, 0xFF) := by decide
/-- T42-33. -/
theorem test_shr_vf : ran 0x8F06 (withRegs [(15, 3)]) (fun t => t.v[15]) = some 0 := by decide
/-- T42-35, T42-36. -/
theorem test_shl :
    ran 0x800E (withRegs [(0, 0x80), (15, 1)]) (fun t => (t.v[0], t.v[15])) = some (0, 0) ∧
    ran 0x800E (withRegs [(0, 0xFF)]) (fun t => (t.v[0], t.v[15])) = some (0xFE, 8) := by decide
/-- T42-38. -/
theorem test_shl_vf : ran 0x8F0E (withRegs [(15, 0x0C)]) (fun t => t.v[15]) = some 0x10 := by decide
/-- T42-42: any draw, through a full mask. -/
theorem test_rnd_full_mask :
    (match exec (.rnd 3 0xFF) State.reset with
      | .next t => t.v[3] = Config.randByte 0 ∧ t.env.draws = 1
      | .fault _ => False
      | .refused _ => False) := by
  have h : ∀ b : Byte, b &&& 0xFF#8 = b := by decide
  exact ⟨h _, rfl⟩
/-- T42-43. -/
theorem test_ldI : ran 0xA123 State.reset (fun t => t.i) = some 0x123 := by decide
/-- T42-46. -/
theorem test_addI_top :
    ran 0xF11E { withRegs [(1, 0xFE)] with i := 0xFF01 } (fun t => (t.i, t.faulted)) = some (0xFFFF, false) := by decide
/-- T42-47. -/
theorem test_addI_overflow :
    ran 0xF11E { withRegs [(1, 1)] with i := 0xFFFF } (fun t => (latch t, t.i, t.pc)) =
      some ((true, .addressRegisterOverflow, 0xFFFF), 0xFFFF, 0x200) := by decide
/-- T42-48, T42-50. -/
theorem test_ldF :
    ran 0xF029 (withRegs [(0, 0x0A)]) (fun t => t.i) = some 0x32 ∧
    ran 0xF029 (withRegs [(0, 0xFF)]) (fun t => t.i) = some 0x4FB := by decide
/-- T43-1. -/
theorem test_ldB :
    ran 0xF033 { withRegs [(0, 245)] with i := 0x300 } (fun t => (t.mem.readBytes 0x300 3, t.i)) = some ([2, 4, 5], 0x300) := by
  decide
/-- T43-4. -/
theorem test_ldB_out_of_range :
    ran 0xF033 { withRegs [(0, 128)] with i := 0xFFE } (fun t => (latch t, t.mem.readBytes 0xFFE 2)) =
      some ((true, .memOutOfRange, 0x1000), [0, 0]) := by decide
/-- T43-6. -/
theorem test_storeRegs :
    ran 0xF255 { withRegs [(0, 0x11), (1, 0x22), (2, 0x33), (3, 0x44)] with i := 0x300, mem := [(0x303, 0xEE)] }
      (fun t => (t.mem.readBytes 0x300 4, t.i)) = some ([0x11, 0x22, 0x33, 0xEE], 0x300) := by decide
/-- T43-9. -/
theorem test_storeRegs_out_of_range :
    ran 0xFF55 { withRegs [(0, 1)] with i := 0xFF1 } (fun t => (latch t, t.mem.read 0xFF1)) =
      some ((true, .memOutOfRange, 0x1000), 0) := by decide
/-- T43-10. -/
theorem test_loadRegs :
    ran 0xF265 { withRegs [(3, 0x77)] with i := 0x300, mem := [(0x300, 2), (0x301, 4), (0x302, 5)] }
      (fun t => (t.v[0], t.v[1], t.v[2], t.v[3])) = some (2, 4, 5, 0x77) := by decide
/-- T43-5 for this form: FAULT_INFO is `I` when `I` itself is out of range. -/
theorem test_loadRegs_out_of_range :
    ran 0xF065 { State.reset with i := 0x1234 } latch = some (true, .memOutOfRange, 0x1234) := by decide
/-- T44-1. -/
theorem test_cls :
    ran 0x00E0 { withRegs [(15, 1)] with fb := Vector.replicate 32 (BitVec.allOnes 64) }
      (fun t => (t.fb == Vector.replicate 32 0#64, t.v[15])) = some (true, 1) := by decide
/-- The masks of section 2.5 of the vectors. -/
theorem test_row_masks :
    rowMask 0xF0 4 = 0x0F00000000000000 ∧ rowMask 0xFF 56 = 0xFF ∧ rowMask 0xFF 57 = 0x800000000000007F ∧
    rowMask 0x81 60 = 0x1000000000000008 ∧ rowMask 0x81 63 = 0x0200000000000001 := by decide
/-- T44-7. -/
theorem test_drw_collision :
    ran 0xD001 { State.reset with fb := State.reset.fb.set 0 0x8000000000000000, mem := [(0x300, 0xC0)], i := 0x300 }
      (fun t => (t.fb[0], t.v[15])) = some (0x4000000000000000, 1) := by decide
/-- T44-10. -/
theorem test_drw_corner :
    ran 0xD121 { withRegs [(1, 0xFF), (2, 0xFF)] with mem := [(0x300, 0xFF)], i := 0x300 }
      (fun t => (t.fb[31], t.fb[0], t.v[15])) = some (0xFE00000000000001, 0, 0) := by decide
/-- T45-1, T45-2. -/
theorem test_skp :
    ran 0xE49E { withRegs [(4, 7)] with keys := onlyKey 7 } (fun t => t.pc) = some 0x204 ∧
    ran 0xE49E (withRegs [(4, 7)]) (fun t => t.pc) = some 0x202 := by decide
/-- T45-1, T45-2. -/
theorem test_sknp :
    ran 0xE4A1 { withRegs [(4, 7)] with keys := onlyKey 7 } (fun t => t.pc) = some 0x202 ∧
    ran 0xE4A1 (withRegs [(4, 7)]) (fun t => t.pc) = some 0x204 := by decide
/-- T45-3. -/
theorem test_key_index_out_of_range :
    ran 0xE49E (withRegs [(4, 0x10)]) latch = some (true, .keyIndexOutOfRange, 0x10) ∧
    ran 0xE4A1 (withRegs [(4, 0x10)]) latch = some (true, .keyIndexOutOfRange, 0x10) := by decide
/-- T45-5. -/
theorem test_ldVxK :
    ran 0xF20A { withRegs [(2, 0x55)] with pc := 0x204, dt := 2 }
      (fun t => (t.waiting, t.waitTarget, t.pc, t.dt, t.v[2])) = some (true, 2, 0x206, 1, 0x55) := by decide
/-- T45-7, T45-8: a rising key ends the wait, a held one does not. -/
theorem test_update_input :
    did (.updateInput (onlyKey 7)) { State.reset with waiting := true, waitTarget := 2 }
      (fun t => (t.v[2], t.waiting, t.waitTarget, t.keys == onlyKey 7)) = some (7, false, 0, true) ∧
    did (.updateInput (onlyKey 7)) { State.reset with waiting := true, waitTarget := 2, keys := onlyKey 7 }
      (fun t => (t.v[2], t.waiting)) = some (0, true) := by decide
/-- T45-13. -/
theorem test_ldVxDt : ran 0xF307 { State.reset with dt := 5 } (fun t => (t.v[3], t.dt)) = some (5, 4) := by decide
/-- T45-14. -/
theorem test_ldDtVx : ran 0xF115 (withRegs [(1, 0xFF)]) (fun t => t.dt) = some 0xFE := by decide
/-- T45-16, T45-17. -/
theorem test_ldStVx :
    ran 0xF018 (withRegs [(0, 1)]) (fun t => (t.st, t.env.beeps)) = some (0, 1) ∧
    ran 0xF018 { State.reset with st := 7 } (fun t => (t.st, t.env.beeps)) = some (0, 0) := by decide
/-- T70-3. -/
theorem test_init :
    did .init State.reset (fun t => (t.mem.readBytes 0 5, t.mem.readBytes 0x4B 6)) =
      some ([0xF0, 0x90, 0x90, 0x90, 0xF0], [0xF0, 0x80, 0xF0, 0x80, 0x80, 0]) := by decide
/-- T70-4. -/
theorem test_load :
    did (.load [0x60, 0x0A, 0x70, 0x05]) State.reset (fun t => (t.mem.readBytes 0x200 5, t.pc)) =
      some ([0x60, 0x0A, 0x70, 0x05, 0], 0x200) := by decide
/-- R284, U20: a second `init`, or a `load` after the first `cycle`, is refused. -/
theorem test_contract :
    transact .init { State.reset with env := { Env.start with inited := true } } = .refused .outsideHostContract ∧
    transact (.load []) { State.reset with env := { Env.start with cycled := true } } = .refused .outsideHostContract :=
  ⟨rfl, rfl⟩

/-! ### Witnesses: for every statement with hypotheses, a state and operands that meet them together -/

/-- A state that is about to run `SE V0, 0` at the last address a fetch can start at. -/
def atLastFetch : State := { State.reset with pc := 0xFFE, mem := [(0xFFE, 0x30)] }

theorem witness_DecodeOfEncodeIsIdentity : (Instr.drw 15 15 15).wf = true ∧ (Instr.unrecognized 0xF1FF).wf = true := by decide
theorem witness_StepRunsTheDecodedInstruction :
    atLastFetch.running ∧ hostCycles atLastFetch ∧ atLastFetch.pc.toNat ≤ 0xFFE ∧
      decodeBytes [atLastFetch.mem.read atLastFetch.pc.toNat, atLastFetch.mem.read (atLastFetch.pc.toNat + 1)] =
        .ok (.seImm 0 0, []) := by decide
theorem witness_hostCycles_scripted :
    hostCycles { State.reset with env := { Env.start with script := [.cycle, .reset] } } := .inr rfl
theorem witness_FetchWordIsRunNext : { atLastFetch with pc := 0xFFF }.mem.wf = true := by decide
theorem witness_GatedCycleChangesNothing :
    (State.reset.raise .stackOverflow 0x200).faulted = true ∧ (State.reset.beginWait 3).waiting = true := by decide
theorem witness_TickFollowsEveryExecutedInstruction :
    { atLastFetch with st := 1 }.running ∧ { atLastFetch with st := 1 }.pc.toNat ≤ 0xFFE ∧
      ∃ t, exec (decode { atLastFetch with st := 1 }.fetch) { atLastFetch with st := 1 } = .next t ∧ t.faulted = false ∧
        t.st = 1 := ⟨by decide, by decide, _, rfl, by decide, by decide⟩
theorem witness_CycleFaultsExactlyAsTabled :
    State.reset.running ∧ cycleFault State.reset = none ∧ cycleFault atLastFetch = none ∧
      cycleFault { State.reset with pc := 0xFFF } = some (.fetchOutOfRange, 0xFFF) := by decide
theorem witness_faultOf :
    faultOf (.call 0) { State.reset with sp := 16 } = some (.stackOverflow, 0x200) ∧
    faultOf (.call 0) { State.reset with sp := 15 } = none ∧
    faultOf (.addI 1) { withRegs [(1, 1)] with i := 0xFFFF } = some (.addressRegisterOverflow, 0xFFFF) ∧
    faultOf (.drw 0 0 3) { State.reset with i := 0xFFE } = some (.memOutOfRange, 0x1000) ∧
    faultOf (.drw 0 0 3) { State.reset with i := 0xFFD } = none ∧
    faultOf (.ldB 0) { State.reset with i := 0xFFE } = some (.memOutOfRange, 0x1000) ∧
    faultOf (.storeRegs 15) { State.reset with i := 0xFF1 } = some (.memOutOfRange, 0x1000) ∧
    faultOf (.loadRegs 1) { State.reset with i := 0xFFF } = some (.memOutOfRange, 0x1000) ∧
    faultOf (.skp 4) (withRegs [(4, 16)]) = some (.keyIndexOutOfRange, 16) ∧
    faultOf (.sknp 4) (withRegs [(4, 15)]) = none := by decide
theorem witness_FaultIsTerminal :
    (State.reset.raise .stackOverflow 0x200).faulted = true ∧ (Transaction.display ≠ .reset) ∧
      ∃ u, transact .display (State.reset.raise .stackOverflow 0x200) = .next u := ⟨rfl, by decide, _, rfl⟩
theorem witness_ProgramCounterFollowsTheTable :
    atLastFetch.running ∧ atLastFetch.pc.toNat ≤ 0xFFE ∧
      (∃ t, exec (.seImm 0 0) atLastFetch = .next t ∧ t.faulted = false ∧ t.pc = 0x1002) ∧
      ∃ t, exec (.call 0) { atLastFetch with sp := 16 } = .next t ∧ t.faulted = true ∧ t.pc = 0xFFE :=
  ⟨by decide, by decide, ⟨_, rfl, by decide, by decide⟩, ⟨_, rfl, by decide, by decide⟩⟩
theorem witness_InstructionsWriteOnlyTheirParts : ∃ t, exec (.storeRegs 15) State.reset = .next t := ⟨_, rfl⟩
/-- Reset, and states with a full stack, a pending wait and each latched fault of R241, meet the invariant; so does what a
step makes of a store out of range. -/
theorem witness_EveryStepKeepsTheInvariant :
    State.reset.Inv ∧ (∃ t, step State.reset = .next t) ∧
      State.Inv { State.reset with sp := 16, stack := Vector.replicate 16 0x1000 } ∧ (State.reset.beginWait 15).Inv ∧
      ∃ t, step { State.reset with i := 0xFF1, mem := [(0x200, 0xFF), (0x201, 0x55)] } = .next t ∧
        latch t = (true, .memOutOfRange, 0x1000) ∧ t.Inv :=
  ⟨by decide, ⟨_, rfl⟩, by decide, by decide, _, rfl, by decide, by decide⟩
theorem witness_latched_faults :
    State.Inv (State.raise { State.reset with pc := 0xFFF } .fetchOutOfRange 0xFFF) ∧
    State.Inv (State.raise { State.reset with mem := [(0x200, 0x24)], sp := 16, stack := Vector.replicate 16 0x1000 }
      .stackOverflow 0x200) ∧
    State.Inv (State.raise { withRegs [(1, 0xFF)] with i := 0xFF01, mem := [(0x200, 0xF1), (0x201, 0x1E)] }
      .addressRegisterOverflow 0xFF01) ∧
    State.Inv (State.raise { withRegs [(4, 16)] with mem := [(0x200, 0xE4), (0x201, 0x9E)] } .keyIndexOutOfRange 16) ∧
    State.Inv (State.reset.raise .loadTooLarge 3585) :=
  ⟨by decide, by decide, by decide, by decide, by decide⟩
/-- A latch whose condition does not hold in the state breaks the invariant. -/
theorem test_latch_without_its_condition : latchMeaning (State.reset.raise .memOutOfRange 0x1000) = false := by decide
theorem witness_StalledMachineOnlyRunsItsTimersDown :
    State.reset.running ∧ State.reset.env.script = [] ∧ State.reset.pc.toNat ≤ 0xFFE ∧ State.reset.stalled = true ∧
      { State.reset with mem := [(0x201, 0xEE)] }.stalled = true ∧
      { State.reset with mem := [(0x200, 0x12)] }.stalled = true ∧
      { State.reset with mem := [(0x200, 0xB2)] }.stalled = true ∧
      { State.reset with pc := 0xFFE, mem := [(0xFFE, 0x1F), (0xFFF, 0xFE)] }.stalled = true := by decide
theorem witness_WaitingMachineStaysAsItIs :
    (State.reset.beginWait 3).waiting = true ∧ (State.reset.beginWait 3).env.script = [] := by decide
theorem witness_OnlyRisingKeyEndsTheWait :
    (State.reset.beginWait 3).faulted = false ∧ (State.reset.beginWait 3).waiting = true ∧
      (∃ t, transact (.updateInput (onlyKey 7)) (State.reset.beginWait 3) = .next t ∧ t.waiting = false) ∧
      ∃ t, transact .cycle (State.reset.beginWait 3) = .next t ∧ t.waiting = true :=
  ⟨by decide, by decide, ⟨_, rfl, by decide⟩, ⟨_, rfl, by decide⟩⟩
theorem witness_NoInstructionReadsTheSoundTimer : ∃ t, exec (.ldVxDt 1) State.reset = .next t := ⟨_, rfl⟩
theorem witness_OnlyRndDependsOnTheRandomSource :
    (∀ x kk, Instr.drw 1 2 3 ≠ .rnd x kk) ∧ ∃ t, exec (.drw 1 2 3) State.reset = .next t :=
  ⟨fun _ _ h => (by cases h), _, rfl⟩
theorem witness_CallPushesTheReturnAddress :
    { State.reset with sp := 0 }.sp.val = (0 : Index).val ∧ { State.reset with sp := 15 }.sp.val = (15 : Index).val ∧
      { State.reset with sp := 16 }.sp.val = 16 := by decide
theorem witness_ReturnPopsOrStalls :
    { State.reset with sp := 16 }.sp.val = (15 : Index).val + 1 ∧ { State.reset with sp := 1 }.sp.val = (0 : Index).val + 1 ∧
      State.reset.sp.val = 0 := by decide
theorem witness_ReturnAfterCallComesBack :
    { State.reset with sp := 15 }.sp.val = (15 : Index).val ∧
      ∃ t, exec (.call 0x400) { State.reset with sp := 15 } = .next t ∧
        { t with pc := 0x500 }.sp = t.sp ∧ { t with pc := 0x500 }.stack = t.stack := ⟨by decide, _, rfl, rfl, rfl⟩
theorem witness_UnrecognizedOpcodeOnlyTicks :
    State.reset.running ∧ State.reset.pc.toNat ≤ 0xFFE ∧ decode State.reset.fetch = .unrecognized 0 := by decide
theorem witness_AddRegistersSetsFlagOnCarryOnly :
    (255 < (withRegs [(0, 0xFF), (1, 1)]).v[(0 : Index)].toNat + (withRegs [(0, 0xFF), (1, 1)]).v[(1 : Index)].toNat) ∧
    ((withRegs [(0, 0xFF)]).v[(0 : Index)].toNat + (withRegs [(0, 0xFF)]).v[(1 : Index)].toNat ≤ 255 ∧ (0 : Index) ≠ 15) ∧
    ((withRegs [(15, 0xFF)]).v[(15 : Index)].toNat + (withRegs [(15, 0xFF)]).v[(1 : Index)].toNat ≤ 255) := by decide
theorem witness_SubtractionsUseTheStrictFlag :
    ((0 : Index) ≠ 15 ∧ (1 : Index) ≠ 15) ∧ ((0 : Index) ≠ 15 ∧ (15 : Index) = 15) ∧ ((15 : Index) = 15 ∧ (1 : Index) ≠ 15) := by
  decide
theorem witness_ShiftsFlagOneBitOfVx : (14 : Index) ≠ 15 ∧ (15 : Index) = 15 := by decide
theorem witness_AddToAddressRegister :
    { withRegs [(1, 0xFE)] with i := 0xFF01 }.i.toNat + { withRegs [(1, 0xFE)] with i := 0xFF01 }.v[(1 : Index)].toNat ≤ 0xFFFF ∧
    0xFFFF < { withRegs [(1, 0xFF)] with i := 0xFF01 }.i.toNat + { withRegs [(1, 0xFF)] with i := 0xFF01 }.v[(1 : Index)].toNat := by
  decide
theorem witness_BcdStoresThreeDigits :
    State.reset.mem.wf = true ∧ { State.reset with i := 0xFFD }.i.toNat + 2 ≤ 0xFFF ∧
      0xFFF < { State.reset with i := 0xFFE }.i.toNat + 2 := by decide
theorem witness_StoreRegistersThroughX :
    State.reset.mem.wf = true ∧ { State.reset with i := 0xFF0 }.i.toNat + (15 : Index).val ≤ 0xFFF ∧
      0xFFF < { State.reset with i := 0xFF1 }.i.toNat + (15 : Index).val := by decide
theorem witness_LoadRegistersThroughX :
    { State.reset with i := 0xFFF }.i.toNat + (0 : Index).val ≤ 0xFFF ∧
      0xFFF < { State.reset with i := 0xFFF }.i.toNat + (1 : Index).val := by decide
/-- For `LoadAfterStoreRestoresRegisters` and `StoreIsSeenByTheNextFetch`: the store's own next state, at `PC` = `I`. -/
theorem witness_store_then_load_or_fetch :
    State.reset.mem.wf = true ∧ { State.reset with i := 0x208 }.i.toNat + (1 : Index).val ≤ 0xFFF ∧
      (1 : Index).val = (0 : Index).val + 1 ∧ (1 : Index) ≤ 1 ∧
      ∃ t, exec (.storeRegs 1) { State.reset with i := 0x208 } = .next t ∧ { t with pc := 0x208 }.mem = t.mem ∧
        { t with pc := 0x208 }.i = t.i ∧
        { t with pc := 0x208 }.pc.toNat = { State.reset with i := 0x208 }.i.toNat + (0 : Index).val :=
  ⟨by decide, by decide, by decide, by decide, _, rfl, rfl, rfl, by decide⟩
theorem witness_RowMaskPlacesTheEightPixels :
    (63 : Nat) < 64 ∧ (7 : Nat) < 8 ∧ (8 : Nat) < 64 ∧ ∀ j < 8, 8 ≠ 63 - (63 + j) % 64 := by decide
theorem witness_DrawXorsTheSpriteIn :
    spriteInMemory { State.reset with i := 0x1234 } 0 ∧ spriteInMemory { State.reset with i := 0xFFD } 3 ∧
      ¬ spriteInMemory { State.reset with i := 0xFFE } 3 ∧
      (∃ k < (1 : Fin 16).val,
        collides { State.reset with fb := State.reset.fb.set 0 0x8000000000000000, mem := [(0x300, 0xC0)], i := 0x300 } 0 0 k) ∧
      ¬ ∃ k < (1 : Fin 16).val, collides { State.reset with mem := [(0x300, 0xC0)], i := 0x300 } 0 0 k :=
  ⟨by decide, by decide, by decide, ⟨0, by decide, by decide⟩, by decide⟩
theorem witness_DrawingTwiceRestoresThePicture :
    spriteInMemory { State.reset with mem := [(0x300, 0xC0)], i := 0x300 } 1 ∧
      ∃ t, exec (.drw 0 0 1) { State.reset with mem := [(0x300, 0xC0)], i := 0x300 } = .next t ∧ t.v[(0 : Index)] = 0 ∧
        t.v[(15 : Index)] = 0#8 ∧
        ∃ k < (1 : Fin 16).val, ({ State.reset with mem := [(0x300, 0xC0)], i := 0x300 }).mem.read (0x300 + k) ≠ 0#8 :=
  ⟨by decide, _, rfl, by decide, by decide, 0, by decide, by decide⟩
theorem witness_DrawOnClearScreenNeverCollides : spriteInMemory { State.reset with i := 0xFF1 } 15 := by decide
theorem witness_KeySkipsReadTheLatch :
    (withRegs [(4, 15)]).v[(4 : Index)].toNat = (15 : Index).val ∧ 15 < (withRegs [(4, 16)]).v[(4 : Index)].toNat := by decide
theorem witness_UpdateInputReplacesTheLatch :
    State.reset.faulted = false ∧ State.reset.waiting = false ∧ (State.reset.beginWait 3).waiting = true ∧
      (∃ k : Index, (State.reset.beginWait 3).keys[k] = false ∧ (onlyKey 7)[k] = true) ∧
      ∀ k : Index, ¬ ({ State.reset.beginWait 3 with keys := onlyKey 7 }.keys[k] = false ∧ (onlyKey 7)[k] = true) := by decide
theorem witness_InitInstallsTheFont :
    State.reset.mem.wf = true ∧ State.reset.faulted = false ∧ (State.reset.raise .stackOverflow 0x200).faulted = true := by
  decide
/-- Also for `InitAndLoadCommute` and `BootLaysOutTheMemoryMap`. -/
theorem witness_LoadCopiesTheProgram :
    State.reset.mem.wf = true ∧ State.reset.faulted = false ∧ (List.replicate 3584 0xFF#8).length ≤ 3584 ∧
      3584 < (List.replicate 3585 0xFF#8).length := by
  exact ⟨by decide, by decide, by rw [List.length_replicate], by rw [List.length_replicate]; decide⟩
/-- 70_reset_and_hazards.md R285: the end of program P2, at `JP 0x204` to itself. -/
theorem witness_endedWell : { State.reset with pc := 0x204, mem := [(0x204, 0x12), (0x205, 0x04)] }.endedWell = true := by decide

end Sys2Proof.Tests
end

section
/-! ### Skips (41_control_flow.md R143 to R145) -/

namespace Sys2Proof.Machine

/-- A skip writes `PC` and nothing else (R143). -/
theorem skipIf_frame (s : State) (c : Bool) : FrameExcept [.pc] s (s.skipIf c) := by
  intro p hp
  cases p <;> simp [Unchanged] at hp ⊢

/-- Everything a skip does, for a condition `p` that its test `c` decides. -/
theorem skipIf_spec (s : State) {c : Bool} {p : Prop} [Decidable p] (h : c = true ↔ p) :
    FrameExcept [.pc] s (s.skipIf c) ∧ (s.skipIf c).pc = if p then s.pc + 4#16 else s.pc + 2#16 :=
  ⟨skipIf_frame s c, by simp [h]⟩

theorem exec_seImm (x : Index) (kk : Byte) (s : State) :
    exec (.seImm x kk) s = .next (s.skipIf (s.readV x == kk)) := rfl

theorem exec_sneImm (x : Index) (kk : Byte) (s : State) :
    exec (.sneImm x kk) s = .next (s.skipIf (s.readV x != kk)) := rfl

/-- The test of `SE Vx, kk` compares all 8 bits (R144). -/
theorem readV_beq_iff (s : State) (x : Index) (kk : Byte) : (s.readV x == kk) = true ↔ s.v[x].toNat = kk.toNat := by
  rw [beq_iff_eq, ← BitVec.toNat_inj, State.readV]

/-- The test of `SNE Vx, kk` compares all 8 bits (R145). -/
theorem readV_bne_iff (s : State) (x : Index) (kk : Byte) : (s.readV x != kk) = true ↔ s.v[x].toNat ≠ kk.toNat := by
  rw [bne_iff_ne, ne_eq, ← BitVec.toNat_inj, State.readV]

/-- Settles O28: each handler is one skip, whose test is the comparison of the two bytes as numbers. -/
theorem immediateSkipsMoveByFourOrTwo : Obligations.ImmediateSkipsMoveByFourOrTwo := by
  intro x kk s
  constructor
  · exact ⟨decode_seImm x kk, _, exec_seImm x kk s, skipIf_spec s (readV_beq_iff s x kk)⟩
  · exact ⟨decode_sneImm x kk, _, exec_sneImm x kk s, skipIf_spec s (readV_bne_iff s x kk)⟩

end Sys2Proof.Machine
end

section
/-! ### Register loads, logic and the address register (42_register_alu.md R160 to R166, R173, R175) -/

namespace Sys2Proof.Machine

/-! The handlers, each as the named updates it makes. -/

theorem exec_ldImm (x : Index) (kk : Byte) (s : State) : exec (.ldImm x kk) s = .next (s.writeV x kk).advance := rfl

theorem exec_addImm (x : Index) (kk : Byte) (s : State) :
    exec (.addImm x kk) s = .next (s.writeV x (s.readV x + kk)).advance := rfl

theorem exec_ldReg (x y : Index) (s : State) : exec (.ldReg x y) s = .next (s.writeV x (s.readV y)).advance := rfl

theorem exec_orReg (x y : Index) (s : State) :
    exec (.orReg x y) s = .next (s.writeV x (s.readV x ||| s.readV y)).advance := rfl

theorem exec_andReg (x y : Index) (s : State) :
    exec (.andReg x y) s = .next (s.writeV x (s.readV x &&& s.readV y)).advance := rfl

theorem exec_xorReg (x y : Index) (s : State) :
    exec (.xorReg x y) s = .next (s.writeV x (s.readV x ^^^ s.readV y)).advance := rfl

theorem exec_ldI (nnn : Addr) (s : State) : exec (.ldI nnn) s = .next (s.setI (zextAddr nnn)).advance := rfl

theorem exec_ldF (x : Index) (s : State) : exec (.ldF x) s = .next (s.setI (glyphAddress (s.readV x))).advance := rfl

/-! What the two shapes of handler, one register write and one write of `I`, leave. -/

/-- The written register holds the byte, whichever register it is. -/
theorem writeV_advance_v_same (s : State) (x : Index) (b : Byte) : (s.writeV x b).advance.v[x] = b := by simp

/-- A register write and the advance leave every other register and every part but `V` and `PC` (R160). -/
theorem writeV_advance_rest (s : State) (x : Index) (b : Byte) :
    (∀ r : Index, r ≠ x → (s.writeV x b).advance.v[r] = s.v[r]) ∧ (s.writeV x b).advance.pc = s.pc + 2#16 ∧
      FrameExcept [.v, .pc] s (s.writeV x b).advance := by
  refine ⟨fun r hr => ?_, rfl, fun p hp => ?_⟩
  · have hne : x.val ≠ r.val := fun h => hr (Fin.ext h.symm)
    simp [hne]
  · cases p <;> simp [Unchanged] at hp ⊢

/-- A write of `I` and the advance leave every part but `I` and `PC` (R160). -/
theorem setI_advance_rest (s : State) (a : Word) :
    (s.setI a).advance.pc = s.pc + 2#16 ∧ FrameExcept [.i, .pc] s (s.setI a).advance := by
  refine ⟨rfl, fun p hp => ?_⟩
  cases p <;> simp [Unchanged] at hp ⊢

/-- The whole byte times five: 255 * 5 fits in 16 bits (R175). -/
theorem toNat_glyphAddress (b : Byte) : (glyphAddress b).toNat = b.toNat * 5 := by
  have hb : b.toNat * 5 < 2 ^ 16 := by omega
  rw [glyphAddress, BitVec.toNat_mul, toNat_zextByte]
  exact Nat.mod_eq_of_lt hb

/-- Settles O32: each handler is one register write, of the immediate or of the 8-bit sum. -/
theorem loadAndAddImmediate : Obligations.LoadAndAddImmediate := by
  intro x kk s
  constructor
  · exact ⟨decode_ldImm x kk, _, exec_ldImm x kk s, writeV_advance_v_same s x _, writeV_advance_rest s x _⟩
  · refine ⟨decode_addImm x kk, _, exec_addImm x kk s, ?_, writeV_advance_rest s x _⟩
    rw [writeV_advance_v_same, BitVec.toNat_add, State.readV]

/-- Settles O33: each handler is one register write, and each operation acts on the bits one by one. -/
theorem copyAndLogicBitByBit : Obligations.CopyAndLogicBitByBit := by
  intro x y s
  refine ⟨?copy, ?or, ?and, ?xor⟩
  case copy => exact ⟨decode_ldReg x y, _, exec_ldReg x y s, writeV_advance_v_same s x _, writeV_advance_rest s x _⟩
  case or =>
    refine ⟨decode_orReg x y, _, exec_orReg x y s, fun b _ => ?_, writeV_advance_rest s x _⟩
    rw [writeV_advance_v_same, BitVec.getLsbD_or, State.readV, State.readV]
  case and =>
    refine ⟨decode_andReg x y, _, exec_andReg x y s, fun b _ => ?_, writeV_advance_rest s x _⟩
    rw [writeV_advance_v_same, BitVec.getLsbD_and, State.readV, State.readV]
  case xor =>
    refine ⟨decode_xorReg x y, _, exec_xorReg x y s, fun b _ => ?_, writeV_advance_rest s x _⟩
    rw [writeV_advance_v_same, BitVec.getLsbD_xor, State.readV, State.readV, Bool.bne_eq_xor]

/-- Settles O38: each handler is one write of `I`, whose value keeps the operand's 12 bits or the whole product. -/
theorem loadAddressRegister : Obligations.LoadAddressRegister := by
  intro nnn x s
  constructor
  · exact ⟨decode_ldI nnn, _, exec_ldI nnn s, toNat_zextAddr nnn, setI_advance_rest s _⟩
  · exact ⟨decode_ldF x, _, exec_ldF x s, toNat_glyphAddress (s.readV x), setI_advance_rest s _⟩

end Sys2Proof.Machine
end

section
/-! ### The encoding table (30_encoding.md R90 to R103) -/

namespace Sys2Proof

open Machine

/-! An opcode put together from the fields of each format (R91, R92). -/

theorem opcode_eq_nnn {op : Word} {g : BitVec 4} (h : groupOf op = g) : op = g ++ nnnOf op := by
  apply BitVec.eq_of_toNat_eq
  simp only [← h, groupOf, nnnOf, BitVec.extractLsb'_toNat, toNat_append_add, Nat.shiftRight_eq_div_pow]
  omega

theorem opcode_eq_xkk {op : Word} {g : BitVec 4} (h : groupOf op = g) : op = g ++ xOf op ++ kkOf op := by
  apply BitVec.eq_of_toNat_eq
  simp only [← h, groupOf, xOf, kkOf, BitVec.extractLsb'_toNat, toNat_append_add, Nat.shiftRight_eq_div_pow]
  omega

theorem opcode_eq_xyn {op : Word} {g : BitVec 4} (h : groupOf op = g) : op = g ++ xOf op ++ yOf op ++ nOf op := by
  rw [← h]
  exact nibbles_of_opcode op

/-- The values of a nibble, for splits along the decoder's groups. -/
theorem nibble_cases (g : BitVec 4) :
    g = 0x0#4 ∨ g = 0x1#4 ∨ g = 0x2#4 ∨ g = 0x3#4 ∨ g = 0x4#4 ∨ g = 0x5#4 ∨ g = 0x6#4 ∨ g = 0x7#4 ∨ g = 0x8#4 ∨
      g = 0x9#4 ∨ g = 0xA#4 ∨ g = 0xB#4 ∨ g = 0xC#4 ∨ g = 0xD#4 ∨ g = 0xE#4 ∨ g = 0xF#4 := by
  decide +revert

/-! ### The spellings of an instruction, and that the decoder reads nothing else -/

/-- `op` is a spelling of the instruction: the opcode R94 gives it, with any bits in the ignored places (R99). -/
def Instr.SpelledBy (op : Word) : Instr → Prop
  | .cls => ∃ d : BitVec 4, op = 0x0#4 ++ d ++ 0xE0#8
  | .ret => ∃ d : BitVec 4, op = 0x0#4 ++ d ++ 0xEE#8
  | .jp nnn => op = 0x1#4 ++ nnn
  | .call nnn => op = 0x2#4 ++ nnn
  | .seImm x kk => op = 0x3#4 ++ indexField x ++ kk
  | .sneImm x kk => op = 0x4#4 ++ indexField x ++ kk
  | .seReg x y => ∃ d : BitVec 4, op = 0x5#4 ++ indexField x ++ indexField y ++ d
  | .ldImm x kk => op = 0x6#4 ++ indexField x ++ kk
  | .addImm x kk => op = 0x7#4 ++ indexField x ++ kk
  | .ldReg x y => op = 0x8#4 ++ indexField x ++ indexField y ++ 0x0#4
  | .orReg x y => op = 0x8#4 ++ indexField x ++ indexField y ++ 0x1#4
  | .andReg x y => op = 0x8#4 ++ indexField x ++ indexField y ++ 0x2#4
  | .xorReg x y => op = 0x8#4 ++ indexField x ++ indexField y ++ 0x3#4
  | .addReg x y => op = 0x8#4 ++ indexField x ++ indexField y ++ 0x4#4
  | .sub x y => op = 0x8#4 ++ indexField x ++ indexField y ++ 0x5#4
  | .shr x => ∃ d : BitVec 4, op = 0x8#4 ++ indexField x ++ d ++ 0x6#4
  | .subn x y => op = 0x8#4 ++ indexField x ++ indexField y ++ 0x7#4
  | .shl x => ∃ d : BitVec 4, op = 0x8#4 ++ indexField x ++ d ++ 0xE#4
  | .sneReg x y => ∃ d : BitVec 4, op = 0x9#4 ++ indexField x ++ indexField y ++ d
  | .ldI nnn => op = 0xA#4 ++ nnn
  | .jpV0 nnn => op = 0xB#4 ++ nnn
  | .rnd x kk => op = 0xC#4 ++ indexField x ++ kk
  | .drw x y n => op = 0xD#4 ++ indexField x ++ indexField y ++ indexField n
  | .skp x => op = 0xE#4 ++ indexField x ++ 0x9E#8
  | .sknp x => op = 0xE#4 ++ indexField x ++ 0xA1#8
  | .ldVxDt x => op = 0xF#4 ++ indexField x ++ 0x07#8
  | .ldVxK x => op = 0xF#4 ++ indexField x ++ 0x0A#8
  | .ldDtVx x => op = 0xF#4 ++ indexField x ++ 0x15#8
  | .ldStVx x => op = 0xF#4 ++ indexField x ++ 0x18#8
  | .addI x => op = 0xF#4 ++ indexField x ++ 0x1E#8
  | .ldF x => op = 0xF#4 ++ indexField x ++ 0x29#8
  | .ldB x => op = 0xF#4 ++ indexField x ++ 0x33#8
  | .storeRegs x => op = 0xF#4 ++ indexField x ++ 0x55#8
  | .loadRegs x => op = 0xF#4 ++ indexField x ++ 0x65#8
  | .unrecognized op' => op = op'

theorem decodeGroup0_spelledBy {op : Word} (h : groupOf op = 0x0#4) : (decodeGroup0 op).SpelledBy op := by
  have hop := opcode_eq_xkk h
  unfold decodeGroup0
  split
  · next hk => rw [hk] at hop; exact ⟨xOf op, hop⟩
  · next hk => rw [hk] at hop; exact ⟨xOf op, hop⟩
  · rfl

theorem decodeGroup8_spelledBy {op : Word} (h : groupOf op = 0x8#4) : (decodeGroup8 op).SpelledBy op := by
  have hop := opcode_eq_xyn h
  simp only [decodeGroup8]
  split
  case h_10 => rfl
  case h_7 hn => rw [hn] at hop; exact ⟨yOf op, hop⟩
  case h_9 hn => rw [hn] at hop; exact ⟨yOf op, hop⟩
  all_goals next hn => rw [hn] at hop; exact hop

theorem decodeGroupE_spelledBy {op : Word} (h : groupOf op = 0xE#4) : (decodeGroupE op).SpelledBy op := by
  have hop := opcode_eq_xkk h
  simp only [decodeGroupE]
  split
  · next hk => rw [hk] at hop; exact hop
  · next hk => rw [hk] at hop; exact hop
  · rfl

theorem decodeGroupF_spelledBy {op : Word} (h : groupOf op = 0xF#4) : (decodeGroupF op).SpelledBy op := by
  have hop := opcode_eq_xkk h
  simp only [decodeGroupF]
  split
  case h_10 => rfl
  all_goals next hk => rw [hk] at hop; exact hop

/-- Every opcode is a spelling of the instruction it decodes to. -/
theorem decode_spelledBy (op : Word) : (decode op).SpelledBy op := by
  simp only [decode]
  split
  · next h => exact decodeGroup0_spelledBy h
  · next h => exact opcode_eq_nnn h
  · next h => exact opcode_eq_nnn h
  · next h => exact opcode_eq_xkk h
  · next h => exact opcode_eq_xkk h
  · next h => exact ⟨nOf op, opcode_eq_xyn h⟩
  · next h => exact opcode_eq_xkk h
  · next h => exact opcode_eq_xkk h
  · next h => exact decodeGroup8_spelledBy h
  · next h => exact ⟨nOf op, opcode_eq_xyn h⟩
  · next h => exact opcode_eq_nnn h
  · next h => exact opcode_eq_nnn h
  · next h => exact opcode_eq_xkk h
  · next h => exact opcode_eq_xyn h
  · next h => exact decodeGroupE_spelledBy h
  · have hF := nibble_cases (groupOf op)
    exact decodeGroupF_spelledBy (by simp_all)

/-- Settles O1: instruction by instruction, each format's fields are read back. -/
theorem decodeOfEncodeIsIdentity : Obligations.DecodeOfEncodeIsIdentity := by
  intro i h
  cases i with
  | cls => exact Laws.RoundTrip.cls h
  | ret => exact Laws.RoundTrip.ret h
  | jp nnn => exact Laws.RoundTrip.jp nnn h
  | call nnn => exact Laws.RoundTrip.call nnn h
  | seImm x kk => exact Laws.RoundTrip.seImm x kk h
  | sneImm x kk => exact Laws.RoundTrip.sneImm x kk h
  | seReg x y => exact Laws.RoundTrip.seReg x y h
  | ldImm x kk => exact Laws.RoundTrip.ldImm x kk h
  | addImm x kk => exact Laws.RoundTrip.addImm x kk h
  | ldReg x y => exact Laws.RoundTrip.ldReg x y h
  | orReg x y => exact Laws.RoundTrip.orReg x y h
  | andReg x y => exact Laws.RoundTrip.andReg x y h
  | xorReg x y => exact Laws.RoundTrip.xorReg x y h
  | addReg x y => exact Laws.RoundTrip.addReg x y h
  | sub x y => exact Laws.RoundTrip.sub x y h
  | shr x => exact Laws.RoundTrip.shr x h
  | subn x y => exact Laws.RoundTrip.subn x y h
  | shl x => exact Laws.RoundTrip.shl x h
  | sneReg x y => exact Laws.RoundTrip.sneReg x y h
  | ldI nnn => exact Laws.RoundTrip.ldI nnn h
  | jpV0 nnn => exact Laws.RoundTrip.jpV0 nnn h
  | rnd x kk => exact Laws.RoundTrip.rnd x kk h
  | drw x y n => exact Laws.RoundTrip.drw x y n h
  | skp x => exact Laws.RoundTrip.skp x h
  | sknp x => exact Laws.RoundTrip.sknp x h
  | ldVxDt x => exact Laws.RoundTrip.ldVxDt x h
  | ldVxK x => exact Laws.RoundTrip.ldVxK x h
  | ldDtVx x => exact Laws.RoundTrip.ldDtVx x h
  | ldStVx x => exact Laws.RoundTrip.ldStVx x h
  | addI x => exact Laws.RoundTrip.addI x h
  | ldF x => exact Laws.RoundTrip.ldF x h
  | ldB x => exact Laws.RoundTrip.ldB x h
  | storeRegs x => exact Laws.RoundTrip.storeRegs x h
  | loadRegs x => exact Laws.RoundTrip.loadRegs x h
  | unrecognized op => exact Laws.RoundTrip.unrecognized op h

/-! ### The ignored bits: an opcode with them zeroed (R99) -/

theorem and_not_0F00 (g d : BitVec 4) (kk : Byte) : (g ++ d ++ kk) &&& ~~~ 0x0F00#16 = g ++ 0#4 ++ kk := by
  have e : ~~~ 0x0F00#16 = BitVec.allOnes 4 ++ 0#4 ++ BitVec.allOnes 8 := rfl
  rw [e, BitVec.and_append, BitVec.and_append]
  simp only [BitVec.and_allOnes, BitVec.and_zero]

theorem and_not_000F (g x y d : BitVec 4) : (g ++ x ++ y ++ d) &&& ~~~ 0x000F#16 = g ++ x ++ y ++ 0#4 := by
  have e : ~~~ 0x000F#16 = BitVec.allOnes 4 ++ BitVec.allOnes 4 ++ BitVec.allOnes 4 ++ 0#4 := rfl
  rw [e, BitVec.and_append, BitVec.and_append, BitVec.and_append]
  simp only [BitVec.and_allOnes, BitVec.and_zero]

theorem and_not_00F0 (g x d n : BitVec 4) : (g ++ x ++ d ++ n) &&& ~~~ 0x00F0#16 = g ++ x ++ 0#4 ++ n := by
  have e : ~~~ 0x00F0#16 = BitVec.allOnes 4 ++ BitVec.allOnes 4 ++ 0#4 ++ BitVec.allOnes 4 := rfl
  rw [e, BitVec.and_append, BitVec.and_append, BitVec.and_append]
  simp only [BitVec.and_allOnes, BitVec.and_zero]

/-- An instruction's opcode is any of its spellings with the ignored bits zeroed. -/
theorem encode_of_spelledBy {i : Instr} {op : Word} (h : i.SpelledBy op) : encode i = op &&& ~~~ (ignoredBits i) := by
  have hall : op &&& ~~~ 0#16 = op := BitVec.and_allOnes
  cases i
  case cls => obtain ⟨d, rfl⟩ := h; exact (and_not_0F00 _ _ _).symm
  case ret => obtain ⟨d, rfl⟩ := h; exact (and_not_0F00 _ _ _).symm
  case seReg => obtain ⟨d, rfl⟩ := h; exact (and_not_000F _ _ _ _).symm
  case sneReg => obtain ⟨d, rfl⟩ := h; exact (and_not_000F _ _ _ _).symm
  case shr => obtain ⟨d, rfl⟩ := h; exact (and_not_00F0 _ _ _ _).symm
  case shl => obtain ⟨d, rfl⟩ := h; exact (and_not_00F0 _ _ _ _).symm
  all_goals exact h.symm.trans hall.symm

/-- Settles O3: every opcode is a spelling of what it decodes to. -/
theorem encodeOfDecodeKeepsSignificantBits : Obligations.EncodeOfDecodeKeepsSignificantBits :=
  fun op => encode_of_spelledBy (decode_spelledBy op)

/-! ### The match/mask table (R103): what each mask keeps of an opcode -/

theorem and_F000 (op : Word) : op &&& 0xF000#16 = groupOf op ++ 0#12 := by
  have e : 0xF000#16 = BitVec.allOnes 4 ++ 0#12 := rfl
  rw [e]
  conv_lhs => rw [opcode_eq_nnn (op := op) rfl, BitVec.and_append]
  simp only [BitVec.and_allOnes, BitVec.and_zero]

theorem and_F0FF (op : Word) : op &&& 0xF0FF#16 = groupOf op ++ 0#4 ++ kkOf op := by
  have e : 0xF0FF#16 = BitVec.allOnes 4 ++ 0#4 ++ BitVec.allOnes 8 := rfl
  rw [e]
  conv_lhs => rw [opcode_eq_xkk (op := op) rfl, BitVec.and_append, BitVec.and_append]
  simp only [BitVec.and_allOnes, BitVec.and_zero]

theorem and_F00F (op : Word) : op &&& 0xF00F#16 = groupOf op ++ 0#4 ++ 0#4 ++ nOf op := by
  have e : 0xF00F#16 = BitVec.allOnes 4 ++ 0#4 ++ 0#4 ++ BitVec.allOnes 4 := rfl
  rw [e]
  conv_lhs => rw [opcode_eq_xyn (op := op) rfl, BitVec.and_append, BitVec.and_append, BitVec.and_append]
  simp only [BitVec.and_allOnes, BitVec.and_zero]

theorem fields_of_and_F000 {op m : Word} (h : op &&& 0xF000#16 = m) : groupOf op = groupOf m := by
  rw [← h, and_F000, groupOf_nnn]

theorem fields_of_and_F0FF {op m : Word} (h : op &&& 0xF0FF#16 = m) : groupOf op = groupOf m ∧ kkOf op = kkOf m := by
  rw [← h, and_F0FF, groupOf_xkk, kkOf_xkk]
  exact ⟨rfl, rfl⟩

theorem fields_of_and_F00F {op m : Word} (h : op &&& 0xF00F#16 = m) : groupOf op = groupOf m ∧ nOf op = nOf m := by
  rw [← h, and_F00F, groupOf_xyn, nOf_xyn]
  exact ⟨rfl, rfl⟩

/-- An opcode that matches row k decodes to the instruction of row k: the mask keeps what the decoder examines. -/
theorem decode_of_matches_row (op : Word) (k : Fin 34)
    (h : op &&& (opcodeTable.getD k.val (0#16, 0#16)).2 = (opcodeTable.getD k.val (0#16, 0#16)).1) :
    (decode op).tableRow = k.val := by
  obtain ⟨k, hk⟩ := k
  have hmask : (k < 2 ∨ 23 ≤ k) ∨ (9 ≤ k ∧ k < 18) ∨ ((2 ≤ k ∧ k < 9) ∨ (18 ≤ k ∧ k < 23)) := by omega
  rcases hmask with hbyte | ⟨hlo, hhi⟩ | hgroup
  · rcases hbyte with hlo | hhi <;> interval_cases k
    all_goals
      obtain ⟨hg, hb⟩ := fields_of_and_F0FF h
      simp only [groupOf, kkOf, opcodeTable] at hg hb
      simp [decode, decodeGroup0, decodeGroupE, decodeGroupF, groupOf, kkOf, hg, hb, Instr.tableRow]
  · interval_cases k
    all_goals
      obtain ⟨hg, hn⟩ := fields_of_and_F00F h
      simp only [groupOf, nOf, opcodeTable] at hg hn
      simp [decode, decodeGroup8, groupOf, nOf, hg, hn, Instr.tableRow]
  · rcases hgroup with ⟨hlo, hhi⟩ | ⟨hlo, hhi⟩ <;> interval_cases k
    all_goals
      have hg := fields_of_and_F000 h
      simp only [groupOf, opcodeTable] at hg
      simp [decode, groupOf, hg, Instr.tableRow]

/-- A spelling of an assigned instruction matches that instruction's row. -/
theorem matches_row_of_spelledBy {i : Instr} {op : Word} (h : i.SpelledBy op) (hi : i.tableRow ≠ 34) :
    op &&& (opcodeTable.getD i.tableRow (0#16, 0#16)).2 = (opcodeTable.getD i.tableRow (0#16, 0#16)).1 := by
  cases i
  case unrecognized => exact absurd rfl hi
  case cls | ret => obtain ⟨d, rfl⟩ := h; simp [opcodeTable, Instr.tableRow, and_F0FF]
  case seReg | sneReg => obtain ⟨d, rfl⟩ := h; simp [opcodeTable, Instr.tableRow, and_F000]
  case shr | shl => obtain ⟨d, rfl⟩ := h; simp [opcodeTable, Instr.tableRow, and_F00F]
  all_goals
    simp only [Instr.SpelledBy] at h
    simp [h, opcodeTable, Instr.tableRow, and_F000, and_F0FF, and_F00F]

/-- The default row is left exactly for the opcodes decoded as unrecognized. -/
theorem tableRow_eq_34_iff (op : Word) : (decode op).tableRow = 34 ↔ decode op = .unrecognized op := by
  have h := decode_spelledBy op
  refine ⟨fun hrow => ?_, fun e => by rw [e]; rfl⟩
  cases hi : decode op <;> rw [hi] at h hrow
  case unrecognized op' => rw [show op = op' from h]
  all_goals cases hrow

/-- Settles O2: a matching row determines the fields the decoder examines, and an opcode spells what it decodes to. -/
theorem decoderFollowsOpcodeTable : Obligations.DecoderFollowsOpcodeTable := by
  refine ⟨rfl, fun op k => ⟨decode_of_matches_row op k, fun hk => ?_⟩, tableRow_eq_34_iff⟩
  rw [← hk]
  exact matches_row_of_spelledBy (decode_spelledBy op) (by omega)

/-! ### The unrecognized opcodes (R100), group by group -/

theorem decodeGroup0_unrecognized_iff (op : Word) :
    decodeGroup0 op = .unrecognized op ↔ ¬ (kkOf op = 0xE0#8 ∨ kkOf op = 0xEE#8) := by
  unfold decodeGroup0
  split <;> simp_all

theorem decodeGroup8_unrecognized_iff (op : Word) :
    decodeGroup8 op = .unrecognized op ↔
      nOf op = 0x8#4 ∨ nOf op = 0x9#4 ∨ nOf op = 0xA#4 ∨ nOf op = 0xB#4 ∨ nOf op = 0xC#4 ∨ nOf op = 0xD#4 ∨
        nOf op = 0xF#4 := by
  unfold decodeGroup8
  rcases nibble_cases (nOf op) with h | h | h | h | h | h | h | h | h | h | h | h | h | h | h | h <;> simp [h]

theorem decodeGroupE_unrecognized_iff (op : Word) :
    decodeGroupE op = .unrecognized op ↔ ¬ (kkOf op = 0x9E#8 ∨ kkOf op = 0xA1#8) := by
  simp only [decodeGroupE]
  split <;> simp_all

theorem decodeGroupF_unrecognized_iff (op : Word) :
    decodeGroupF op = .unrecognized op ↔
      ¬ (kkOf op = 0x07#8 ∨ kkOf op = 0x0A#8 ∨ kkOf op = 0x15#8 ∨ kkOf op = 0x18#8 ∨ kkOf op = 0x1E#8 ∨
        kkOf op = 0x29#8 ∨ kkOf op = 0x33#8 ∨ kkOf op = 0x55#8 ∨ kkOf op = 0x65#8) := by
  simp only [decodeGroupF]
  split <;> simp_all

/-- Settles O4: only the four groups with a second level can leave an opcode unrecognized. -/
theorem unrecognizedOpcodesAreTheListedOnes : Obligations.UnrecognizedOpcodesAreTheListedOnes := by
  intro g x y n
  have h0 := decodeGroup0_unrecognized_iff (g ++ x ++ y ++ n)
  have h8 := decodeGroup8_unrecognized_iff (g ++ x ++ y ++ n)
  have hE := decodeGroupE_unrecognized_iff (g ++ x ++ y ++ n)
  have hF := decodeGroupF_unrecognized_iff (g ++ x ++ y ++ n)
  rw [kkOf_xyn] at h0 hE hF
  rw [nOf_xyn] at h8
  unfold decode
  rw [groupOf_xyn]
  rcases nibble_cases g with h | h | h | h | h | h | h | h | h | h | h | h | h | h | h | h <;>
    subst h <;> simp [h0, h8, hE, hF]

/-- Settles O5: each word is one literal opcode. -/
theorem writtenOutWordsDecode : Obligations.WrittenOutWordsDecode :=
  ⟨rfl, rfl, rfl, rfl, rfl, rfl⟩

end Sys2Proof
end

section
/-! ### Frames of the named updates, and the handlers as named updates -/

namespace Sys2Proof.Machine

/-! Frames: a longer list says less, and the lists of successive updates join. -/

theorem FrameExcept.mono {ps qs : List Part} {s t : State} (h : FrameExcept ps s t) (hs : ps ⊆ qs) :
    FrameExcept qs s t :=
  fun p hp => h p fun hm => hp (hs hm)

theorem FrameExcept.trans {ps qs : List Part} {s t u : State} (h1 : FrameExcept ps s t) (h2 : FrameExcept qs t u) :
    FrameExcept (ps ++ qs) s u :=
  frame_trans (h1.mono (List.subset_append_left ps qs)) (h2.mono (List.subset_append_right ps qs))

theorem writeV_frame (s : State) (r : Index) (b : Byte) : FrameExcept [.v] s (s.writeV r b) := by
  intro p hp; cases p <;> simp [Unchanged] at hp ⊢

theorem loadThrough_frame (s : State) (x : Index) : FrameExcept [.v] s (s.loadThrough x) := by
  intro p hp; cases p <;> simp [Unchanged] at hp ⊢

theorem setI_frame (s : State) (a : Word) : FrameExcept [.i] s (s.setI a) := by
  intro p hp; cases p <;> simp [Unchanged] at hp ⊢

theorem setPc_frame (s : State) (a : Word) : FrameExcept [.pc] s (s.setPc a) := by
  intro p hp; cases p <;> simp [Unchanged] at hp ⊢

theorem advance_frame (s : State) : FrameExcept [.pc] s s.advance := setPc_frame s _

theorem setDt_frame (s : State) (b : Byte) : FrameExcept [.dt] s (s.setDt b) := by
  intro p hp; cases p <;> simp [Unchanged] at hp ⊢

theorem setSt_frame (s : State) (b : Byte) : FrameExcept [.st] s (s.setSt b) := by
  intro p hp; cases p <;> simp [Unchanged] at hp ⊢

theorem setMem_frame (s : State) (m : Memory) : FrameExcept [.mem] s (s.setMem m) := by
  intro p hp; cases p <;> simp [Unchanged] at hp ⊢

theorem setFb_frame (s : State) (fb : Framebuffer) : FrameExcept [.fb] s (s.setFb fb) := by
  intro p hp; cases p <;> simp [Unchanged] at hp ⊢

theorem push_frame (s : State) (a : Word) (h : s.sp.val < 16) : FrameExcept [.sp, .stack] s (s.push a h) := by
  intro p hp; cases p <;> simp [Unchanged] at hp ⊢

theorem pop_frame (s : State) (h : 0 < s.sp.val) : FrameExcept [.pc, .sp, .stack] s (s.pop h) := by
  intro p hp; cases p <;> simp [Unchanged] at hp ⊢

theorem drawn_frame (s : State) : FrameExcept [.env] s s.drawn := by
  intro p hp; cases p <;> simp [Unchanged] at hp ⊢

theorem beginWait_frame (s : State) (x : Index) : FrameExcept [.waiting, .waitTarget] s (s.beginWait x) := by
  intro p hp; cases p <;> simp [Unchanged] at hp ⊢

theorem raise_frame (s : State) (c : FaultCause) (w : Word) : FrameExcept [.fault] s (s.raise c w) := by
  intro p hp; cases p <;> simp [Unchanged] at hp ⊢

/-- A raised fault is latched with its information (R242). -/
theorem raise_latched (s : State) (c : FaultCause) (w : Word) : Latched (s.raise c w) c w.toNat := ⟨rfl, rfl, rfl⟩

/-! The handlers that branch, in each of their branches. -/

theorem exec_ret_pop {s : State} (h : 0 < s.sp.val) : exec .ret s = .next (s.pop h) := by
  rw [exec, execRet, dif_pos h]

theorem exec_ret_empty {s : State} (h : s.sp.val = 0) : exec .ret s = .next s := by
  rw [exec, execRet, dif_neg (by omega)]

theorem exec_call_push (nnn : Addr) {s : State} (h : s.sp.val < 16) :
    exec (.call nnn) s = .next ((s.push (s.pc + 2#16) h).setPc (zextAddr nnn)) := by
  rw [exec, execCall, dif_pos h]

theorem exec_call_full (nnn : Addr) {s : State} (h : s.sp.val = 16) :
    exec (.call nnn) s = .next (s.raise .stackOverflow s.pc) := by
  rw [exec, execCall, dif_neg (by omega)]

theorem exec_addI_sum (x : Index) {s : State} (h : s.i.toNat + s.v[x].toNat ≤ 0xFFFF) :
    exec (.addI x) s = .next (s.setI (s.i + zextByte (s.readV x))).advance := by
  rw [exec, execAddI, if_neg (by rw [addressOverflows, decide_eq_true_iff]; exact Nat.not_lt.mpr h)]

theorem exec_addI_overflow (x : Index) {s : State} (h : 0xFFFF < s.i.toNat + s.v[x].toNat) :
    exec (.addI x) s = .next (s.raise .addressRegisterOverflow s.i) := by
  rw [exec, execAddI, if_pos (by rw [addressOverflows, decide_eq_true_iff]; exact h)]

theorem exec_skp (x : Index) (s : State) : exec (.skp x) s = .next (s.skipOnKey x true) := rfl

theorem exec_sknp (x : Index) (s : State) : exec (.sknp x) s = .next (s.skipOnKey x false) := rfl

theorem skipOnKey_skip {x : Index} {s : State} (held : Bool) (h : s.v[x].toNat < 16) :
    s.skipOnKey x held = s.skipIf (s.keys[s.v[x].toNat] == held) := by
  exact dif_pos h

theorem skipOnKey_raise {x : Index} {s : State} (held : Bool) (h : 15 < s.v[x].toNat) :
    s.skipOnKey x held = s.raise .keyIndexOutOfRange (zextByte s.v[x]) := by
  exact dif_neg (Nat.not_lt.mpr h)

/-- In range, an instruction that accesses memory has its effect. -/
theorem next_accessing_inRange {s t : State} {len : Nat} (h : s.i.toNat + len ≤ 0x1000) :
    (.next (s.accessing len t) : Result) = .next t := by
  rw [accessing_fits s t len ((fits_iff _ _).mpr (by omega))]

/-- Out of range it faults before any access (D2, D23). -/
theorem next_accessing_outside {s t : State} {len : Nat} (h0 : 0 < len) (h : 0x1000 < s.i.toNat + len) :
    (.next (s.accessing len t) : Result) = .next (s.raise .memOutOfRange (firstOutside s.i)) := by
  rw [accessing_faults s t len (Bool.eq_false_iff.mpr fun hf => by rw [fits_iff] at hf; omega)]

theorem exec_ldB_inRange (x : Index) {s : State} (h : s.i.toNat + 2 ≤ 0xFFF) :
    exec (.ldB x) s = .next (s.setMem (s.mem.writeBytes s.i.toNat (bcdDigits (s.readV x)))).advance :=
  next_accessing_inRange (by omega)

theorem exec_storeRegs_inRange (x : Index) {s : State} (h : s.i.toNat + x.val ≤ 0xFFF) :
    exec (.storeRegs x) s = .next (s.setMem (s.mem.writeBytes s.i.toNat (s.regsThrough x))).advance :=
  next_accessing_inRange (by omega)

theorem exec_loadRegs_inRange (x : Index) {s : State} (h : s.i.toNat + x.val ≤ 0xFFF) :
    exec (.loadRegs x) s = .next (s.loadThrough x).advance :=
  next_accessing_inRange (by omega)

theorem exec_addReg_carry (x y : Index) {s : State} (h : 255 < s.v[x].toNat + s.v[y].toNat) :
    exec (.addReg x y) s = .next ((s.writeV x (s.readV x + s.readV y)).writeV flagReg 1#8).advance := by
  have hc : carries (s.readV x) (s.readV y) = true := decide_eq_true h
  rw [exec, execAddReg, if_pos hc]

theorem exec_addReg_noCarry (x y : Index) {s : State} (h : s.v[x].toNat + s.v[y].toNat ≤ 255) :
    exec (.addReg x y) s = .next (s.writeV x (s.readV x + s.readV y)).advance := by
  have hc : ¬ carries (s.readV x) (s.readV y) = true := fun hc => Nat.not_lt.mpr h (of_decide_eq_true hc)
  rw [exec, execAddReg, if_neg hc]

/-- Two register writes and the advance leave every part but `V` and `PC`. -/
theorem writeV_writeV_advance_frame (s : State) (r r' : Index) (b b' : Byte) :
    FrameExcept [.v, .pc] s ((s.writeV r b).writeV r' b').advance :=
  (((writeV_frame s r b).trans (writeV_frame _ r' b')).trans (advance_frame _)).mono (by decide)

/-- A call that does not fault leaves every part but the stack, `SP` and `PC`. -/
theorem push_setPc_frame (s : State) (a b : Word) (h : s.sp.val < 16) :
    FrameExcept [.pc, .sp, .stack] s ((s.push a h).setPc b) :=
  ((push_frame s a h).trans (setPc_frame _ b)).mono (by decide)

/-- `RND` leaves every part but `V`, `PC` and the count of draws. -/
theorem drawn_writeV_advance_frame (s : State) (r : Index) (b : Byte) :
    FrameExcept [.v, .pc, .env] s (s.drawn.writeV r b).advance :=
  (((drawn_frame s).trans (writeV_frame _ r b)).trans (advance_frame _)).mono (by decide)

/-! ### An instruction faults exactly as tabled (60_exceptions.md R241), and otherwise writes only its parts -/

/-! Where the table names no fault of an instruction. -/

section
variable {s : State} {x y : Index} {n : Fin 16} {nnn : Addr}

theorem faultOf_call_none : faultOf (.call nnn) s = none ↔ s.sp.val < 16 := by
  have hsp := s.sp.isLt
  simp only [faultOf, ite_eq_right_iff, reduceCtorEq, imp_false]
  omega

theorem faultOf_addI_none : faultOf (.addI x) s = none ↔ s.i.toNat + s.v[x].toNat ≤ 0xFFFF := by simp [faultOf]

theorem faultOf_drw_none : faultOf (.drw x y n) s = none ↔ spriteInMemory s n := by
  simp only [faultOf, ite_eq_right_iff, reduceCtorEq, imp_false]
  omega

theorem faultOf_ldB_none : faultOf (.ldB x) s = none ↔ s.i.toNat + 2 ≤ 0xFFF := by simp [faultOf]

theorem faultOf_storeRegs_none : faultOf (.storeRegs x) s = none ↔ s.i.toNat + x.val ≤ 0xFFF := by simp [faultOf]

theorem faultOf_loadRegs_none : faultOf (.loadRegs x) s = none ↔ s.i.toNat + x.val ≤ 0xFFF := by simp [faultOf]

theorem faultOf_skp_none : faultOf (.skp x) s = none ↔ s.v[x].toNat < 16 := by
  simp only [faultOf, ite_eq_right_iff, reduceCtorEq, imp_false]
  omega

theorem faultOf_sknp_none : faultOf (.sknp x) s = none ↔ s.v[x].toNat < 16 := faultOf_skp_none
end

/-- An instruction that the fault table names raises that fault. -/
theorem exec_raises {i : Instr} {s : State} {c : FaultCause} {info : Nat} (h : faultOf i s = some (c, info)) :
    ∃ w : Word, w.toNat = info ∧ exec i s = .next (s.raise c w) := by
  cases i
  case call nnn =>
    obtain ⟨hc, ⟨⟩⟩ := Option.ite_none_right_eq_some.mp h
    exact ⟨_, rfl, exec_call_full nnn hc⟩
  case addI x =>
    obtain ⟨hc, ⟨⟩⟩ := Option.ite_none_right_eq_some.mp h
    exact ⟨_, rfl, exec_addI_overflow x hc⟩
  case skp x =>
    obtain ⟨hc, ⟨⟩⟩ := Option.ite_none_right_eq_some.mp h
    exact ⟨_, toNat_zextByte _, congrArg Host.Outcome.next (skipOnKey_raise true hc)⟩
  case sknp x =>
    obtain ⟨hc, ⟨⟩⟩ := Option.ite_none_right_eq_some.mp h
    exact ⟨_, toNat_zextByte _, congrArg Host.Outcome.next (skipOnKey_raise false hc)⟩
  case drw x y n =>
    obtain ⟨⟨hn, hc⟩, ⟨⟩⟩ := Option.ite_none_right_eq_some.mp h
    exact ⟨_, toNat_firstOutside _, next_accessing_outside hn (by omega)⟩
  case ldB x =>
    obtain ⟨hc, ⟨⟩⟩ := Option.ite_none_right_eq_some.mp h
    exact ⟨_, toNat_firstOutside _, next_accessing_outside (by omega) (by omega)⟩
  case storeRegs x =>
    obtain ⟨hc, ⟨⟩⟩ := Option.ite_none_right_eq_some.mp h
    exact ⟨_, toNat_firstOutside _, next_accessing_outside (by omega) (by omega)⟩
  case loadRegs x =>
    obtain ⟨hc, ⟨⟩⟩ := Option.ite_none_right_eq_some.mp h
    exact ⟨_, toNat_firstOutside _, next_accessing_outside (by omega) (by omega)⟩
  all_goals cases h

/-- The parts an instruction writes when it raises no fault. -/
def writes (i : Instr) : List Part := (mayWrite i).filter (· ≠ .fault)

theorem fault_notMem_writes (i : Instr) : .fault ∉ writes i := by simp [writes]

theorem writes_subset (i : Instr) : writes i ⊆ mayWrite i := List.filter_subset_self _

/-- An instruction that the fault table does not name answers a next state that differs in its parts only. -/
theorem exec_works {i : Instr} {s : State} (h : faultOf i s = none) :
    ∃ t, exec i s = .next t ∧ FrameExcept (writes i) s t := by
  cases i with
  | cls => exact ⟨_, rfl, (setFb_frame s _).trans (advance_frame _)⟩
  | ret =>
    by_cases hs : 0 < s.sp.val
    · exact ⟨_, exec_ret_pop hs, pop_frame s hs⟩
    · exact ⟨_, exec_ret_empty (by omega), frame_refl _ s⟩
  | jp nnn => exact ⟨_, rfl, setPc_frame s _⟩
  | call nnn =>
    have hs := faultOf_call_none.mp h
    exact ⟨_, exec_call_push nnn hs, push_setPc_frame s _ _ hs⟩
  | seImm x kk => exact ⟨_, rfl, skipIf_frame s _⟩
  | sneImm x kk => exact ⟨_, rfl, skipIf_frame s _⟩
  | seReg x y => exact ⟨_, rfl, skipIf_frame s _⟩
  | ldImm x kk => exact ⟨_, rfl, (writeV_frame s x _).trans (advance_frame _)⟩
  | addImm x kk => exact ⟨_, rfl, (writeV_frame s x _).trans (advance_frame _)⟩
  | ldReg x y => exact ⟨_, rfl, (writeV_frame s x _).trans (advance_frame _)⟩
  | orReg x y => exact ⟨_, rfl, (writeV_frame s x _).trans (advance_frame _)⟩
  | andReg x y => exact ⟨_, rfl, (writeV_frame s x _).trans (advance_frame _)⟩
  | xorReg x y => exact ⟨_, rfl, (writeV_frame s x _).trans (advance_frame _)⟩
  | addReg x y =>
    by_cases hc : 255 < s.v[x].toNat + s.v[y].toNat
    · exact ⟨_, exec_addReg_carry x y hc, writeV_writeV_advance_frame s x _ _ _⟩
    · exact ⟨_, exec_addReg_noCarry x y (Nat.not_lt.mp hc), (writeV_frame s x _).trans (advance_frame _)⟩
  | sub x y => exact ⟨_, rfl, writeV_writeV_advance_frame s flagReg x _ _⟩
  | shr x => exact ⟨_, rfl, writeV_writeV_advance_frame s flagReg x _ _⟩
  | subn x y => exact ⟨_, rfl, writeV_writeV_advance_frame s flagReg x _ _⟩
  | shl x => exact ⟨_, rfl, writeV_writeV_advance_frame s flagReg x _ _⟩
  | sneReg x y => exact ⟨_, rfl, skipIf_frame s _⟩
  | ldI nnn => exact ⟨_, rfl, (setI_frame s _).trans (advance_frame _)⟩
  | jpV0 nnn => exact ⟨_, rfl, setPc_frame s _⟩
  | rnd x kk => exact ⟨_, rfl, drawn_writeV_advance_frame s x _⟩
  | drw x y n =>
    exact ⟨_, exec_drw s x y n (faultOf_drw_none.mp h),
      ((setFb_frame s _).trans (writeV_frame _ _ _)).trans (advance_frame _)⟩
  | skp x =>
    exact ⟨_, congrArg Host.Outcome.next (skipOnKey_skip true (faultOf_skp_none.mp h)), skipIf_frame s _⟩
  | sknp x =>
    exact ⟨_, congrArg Host.Outcome.next (skipOnKey_skip false (faultOf_sknp_none.mp h)), skipIf_frame s _⟩
  | ldVxDt x => exact ⟨_, rfl, (writeV_frame s x _).trans (advance_frame _)⟩
  | ldVxK x => exact ⟨_, rfl, (beginWait_frame s x).trans (advance_frame _)⟩
  | ldDtVx x => exact ⟨_, rfl, (setDt_frame s _).trans (advance_frame _)⟩
  | ldStVx x => exact ⟨_, rfl, (setSt_frame s _).trans (advance_frame _)⟩
  | addI x =>
    exact ⟨_, exec_addI_sum x (faultOf_addI_none.mp h), (setI_frame s _).trans (advance_frame _)⟩
  | ldF x => exact ⟨_, rfl, (setI_frame s _).trans (advance_frame _)⟩
  | ldB x =>
    exact ⟨_, exec_ldB_inRange x (faultOf_ldB_none.mp h), (setMem_frame s _).trans (advance_frame _)⟩
  | storeRegs x =>
    exact ⟨_, exec_storeRegs_inRange x (faultOf_storeRegs_none.mp h), (setMem_frame s _).trans (advance_frame _)⟩
  | loadRegs x =>
    exact ⟨_, exec_loadRegs_inRange x (faultOf_loadRegs_none.mp h), (loadThrough_frame s x).trans (advance_frame _)⟩
  | unrecognized op => exact ⟨_, rfl, frame_refl _ s⟩

/-- Only an instruction whose rule lists the latch faults. -/
theorem fault_mem_mayWrite {i : Instr} {s : State} {f : FaultCause × Nat} (h : faultOf i s = some f) :
    .fault ∈ mayWrite i := by
  cases i
  case call | addI | drw | ldB | storeRegs | loadRegs | skp | sknp => simp [mayWrite]
  all_goals cases h

/-- Every instruction answers a next state, which differs in the parts its rule names only. -/
theorem exec_frame (i : Instr) (s : State) : ∃ t, exec i s = .next t ∧ FrameExcept (mayWrite i) s t := by
  cases h : faultOf i s with
  | none =>
    obtain ⟨t, e, hf⟩ := exec_works h
    exact ⟨t, e, hf.mono (writes_subset i)⟩
  | some f =>
    obtain ⟨w, -, e⟩ := exec_raises h
    exact ⟨_, e, (raise_frame s _ w).mono (by simpa using fault_mem_mayWrite h)⟩

/-- A fault of the table is latched, and nothing else changes (R242). -/
theorem exec_latches {i : Instr} {s : State} {c : FaultCause} {info : Nat} (h : faultOf i s = some (c, info)) :
    ∃ t, exec i s = .next t ∧ Latched t c info ∧ FrameExcept [.fault] s t := by
  obtain ⟨w, rfl, e⟩ := exec_raises h
  exact ⟨_, e, raise_latched s c w, raise_frame s c w⟩

/-- What an instruction answered is a raised fault of the table, or a state that differs in its parts only. -/
theorem exec_cases {i : Instr} {s t : State} (e : exec i s = .next t) :
    (∃ c w, faultOf i s = some (c, w.toNat) ∧ t = s.raise c w) ∨
    (faultOf i s = none ∧ FrameExcept (writes i) s t) := by
  cases h : faultOf i s with
  | none =>
    obtain ⟨t', e', hf⟩ := exec_works h
    cases e'.symm.trans e
    exact .inr ⟨rfl, hf⟩
  | some f =>
    obtain ⟨w, hw, e'⟩ := exec_raises h
    cases e'.symm.trans e
    exact .inl ⟨f.1, w, by rw [hw], rfl⟩

/-- Settles O14: the parts written in the fault case are the latch, in the other case the rule's other parts. -/
theorem instructionsWriteOnlyTheirParts : Obligations.InstructionsWriteOnlyTheirParts := by
  intro i s t e
  obtain ⟨t', e', hf⟩ := exec_frame i s
  cases e'.symm.trans e
  exact hf

end Sys2Proof.Machine
end

section
/-! ### Where an instruction leaves `PC` (40_fetch_decode_cycle.md R129), memory and the stack -/

namespace Sys2Proof.Machine

/-! `PC` sums from a fetch address do not wrap (R123). -/

theorem toNat_pc_add_two {a : Word} (h : a.toNat ≤ 0xFFE) : (a + 2#16).toNat = a.toNat + 2 := by
  rw [BitVec.toNat_add, BitVec.toNat_ofNat]
  omega

theorem toNat_pc_add_four {a : Word} (h : a.toNat ≤ 0xFFE) : (a + 4#16).toNat = a.toNat + 4 := by
  rw [BitVec.toNat_add, BitVec.toNat_ofNat]
  omega

theorem toNat_skipIf_pc {s : State} (h : s.pc.toNat ≤ 0xFFE) {c : Bool} {p : Prop} [Decidable p] (hc : c = true ↔ p) :
    (s.skipIf c).pc.toNat = if p then s.pc.toNat + 4 else s.pc.toNat + 2 := by
  rw [State.skipIf_pc]
  by_cases hp : p
  · rw [if_pos (hc.mpr hp), if_pos hp, toNat_pc_add_four h]
  · rw [if_neg (fun e => hp (hc.mp e)), if_neg hp, toNat_pc_add_two h]

/-- The target of `JP V0, nnn` does not wrap: 0xFFF + 0xFF fits in 16 bits (R148). -/
theorem toNat_jpV0_target (nnn : Addr) (b : Byte) : (zextAddr nnn + zextByte b).toNat = nnn.toNat + b.toNat := by
  have h1 := nnn.isLt
  have h2 := b.isLt
  rw [BitVec.toNat_add, toNat_zextAddr, toNat_zextByte]
  omega

/-- A key that a byte names is held when the latch entry is true. -/
theorem keyHeld_eq {s : State} {b : Byte} (h : b.toNat < 16) : keyHeld s b = s.keys[b.toNat] := by
  simp [keyHeld, h]

/-- A slot of the stack, read as the program-counter table reads it. -/
theorem stack_getD (s : State) {k : Nat} (h : k < 16) : s.stack.toList.getD k 0#16 = s.stack[k] := by simp [h]

/-- An instruction that raises no fault leaves `PC` at the table's value. -/
theorem exec_pc {i : Instr} {s t : State} (hpc : s.pc.toNat ≤ 0xFFE) (h : faultOf i s = none)
    (e : exec i s = .next t) : t.pc.toNat = pcAfter i s := by
  have h2 := toNat_pc_add_two hpc
  cases i with
  | ret =>
    by_cases hs : 0 < s.sp.val
    · cases (exec_ret_pop hs).symm.trans e
      rw [pcAfter, if_pos hs, stack_getD s (by omega), State.pop_pc]
    · cases (exec_ret_empty (by omega)).symm.trans e
      rw [pcAfter, if_neg hs]
  | jp nnn => cases e; exact toNat_zextAddr nnn
  | call nnn =>
    cases (exec_call_push nnn (faultOf_call_none.mp h)).symm.trans e
    exact toNat_zextAddr nnn
  | seImm x kk => cases e; exact toNat_skipIf_pc hpc beq_iff_eq
  | sneImm x kk => cases e; exact (toNat_skipIf_pc hpc bne_iff_ne).trans (ite_not _ _ _)
  | seReg x y => cases e; exact toNat_skipIf_pc hpc beq_iff_eq
  | sneReg x y => cases e; exact (toNat_skipIf_pc hpc bne_iff_ne).trans (ite_not _ _ _)
  | jpV0 nnn => cases e; exact toNat_jpV0_target nnn _
  | skp x =>
    have hk := faultOf_skp_none.mp h
    cases (congrArg Host.Outcome.next (skipOnKey_skip true hk)).symm.trans e
    refine toNat_skipIf_pc hpc ?_
    rw [keyHeld_eq hk, beq_iff_eq]
  | sknp x =>
    have hk := faultOf_sknp_none.mp h
    cases (congrArg Host.Outcome.next (skipOnKey_skip false hk)).symm.trans e
    refine (toNat_skipIf_pc hpc (p := ¬ keyHeld s s.v[x] = true) ?_).trans (ite_not _ _ _)
    rw [keyHeld_eq hk, beq_iff_eq, Bool.not_eq_true]
  | addReg x y =>
    by_cases hc : 255 < s.v[x].toNat + s.v[y].toNat
    · cases (exec_addReg_carry x y hc).symm.trans e; exact h2
    · cases (exec_addReg_noCarry x y (Nat.not_lt.mp hc)).symm.trans e; exact h2
  | drw x y n =>
    cases (exec_drw s x y n (faultOf_drw_none.mp h)).symm.trans e
    exact h2
  | addI x =>
    cases (exec_addI_sum x (faultOf_addI_none.mp h)).symm.trans e
    exact h2
  | ldB x =>
    cases (exec_ldB_inRange x (faultOf_ldB_none.mp h)).symm.trans e
    exact h2
  | storeRegs x =>
    cases (exec_storeRegs_inRange x (faultOf_storeRegs_none.mp h)).symm.trans e
    exact h2
  | loadRegs x =>
    cases (exec_loadRegs_inRange x (faultOf_loadRegs_none.mp h)).symm.trans e
    exact h2
  | unrecognized op => cases e; rfl
  | _ => cases e; exact h2

/-- Settles O13: a fault leaves `PC`, and without one the table holds. -/
theorem programCounterFollowsTheTable : Obligations.ProgramCounterFollowsTheTable := by
  intro i s t hr hpc e
  rcases exec_cases e with ⟨c, w, -, rfl⟩ | ⟨hn, hf⟩
  · rfl
  · have hlatch := hf .fault (fault_notMem_writes i)
    rw [hlatch.1, hr.1, exec_pc hpc hn e]
    rfl

/-! The canonical form of memory (R31): only `LD B` and `LD [I]` write memory, and they keep it. -/

theorem accessing_mem_wf {s t : State} (len : Nat) (hs : s.mem.wf = true) (ht : t.mem.wf = true) :
    (s.accessing len t).mem.wf = true := by
  rcases accessing_cases s t len with ⟨-, e⟩ | ⟨-, e⟩ <;> rw [e]
  · exact ht
  · exact hs

theorem skipOnKey_mem (s : State) (x : Index) (held : Bool) : (s.skipOnKey x held).mem = s.mem := by
  unfold State.skipOnKey
  split <;> rfl

theorem exec_mem_wf {i : Instr} {s t : State} (h : s.mem.wf = true) (e : exec i s = .next t) : t.mem.wf = true := by
  cases i with
  | ret =>
    simp only [exec, execRet] at e
    split at e <;> cases e <;> exact h
  | call nnn =>
    simp only [exec, execCall] at e
    split at e <;> cases e <;> exact h
  | addI x =>
    simp only [exec, execAddI] at e
    split at e <;> cases e <;> exact h
  | addReg x y =>
    cases e
    simp only [State.advance_mem]
    split <;> exact h
  | skp x => cases e; rw [skipOnKey_mem]; exact h
  | sknp x => cases e; rw [skipOnKey_mem]; exact h
  | drw x y n => cases e; exact accessing_mem_wf _ h h
  | loadRegs x => cases e; exact accessing_mem_wf _ h h
  | ldB x => cases e; exact accessing_mem_wf _ h (Memory.writeBytes_wf h)
  | storeRegs x => cases e; exact accessing_mem_wf _ h (Memory.writeBytes_wf h)
  | _ => cases e; exact h

/-! The live stack slots hold return addresses, the others are zero (R25, R142). -/

/-- The stack part of the invariant. -/
abbrev State.stackOk (s : State) : Prop :=
  (∀ j : Index, j.val < s.sp.val → 2 ≤ s.stack[j].toNat ∧ s.stack[j].toNat ≤ 0x1000) ∧
  (∀ j : Index, s.sp.val ≤ j.val → s.stack[j] = 0#16)

theorem stackOk_congr {s t : State} (hstack : ∀ j : Index, t.stack[j] = s.stack[j]) (hsp : t.sp = s.sp)
    (h : s.stackOk) : t.stackOk := by
  simpa only [State.stackOk, hstack, hsp] using h

theorem stackOk_push {s : State} {a : Word} (hsp : s.sp.val < 16) (h2 : 2 ≤ a.toNat) (h3 : a.toNat ≤ 0x1000)
    (h : s.stackOk) : (s.push a hsp).stackOk := by
  obtain ⟨hlive, hfree⟩ := h
  constructor
  · intro j hj
    by_cases e : s.sp.val = j.val
    · simp [e, h2, h3]
    · simp only [State.push_sp] at hj
      simpa [e] using hlive j (by omega)
  · intro j hj
    simp only [State.push_sp] at hj
    have e : s.sp.val ≠ j.val := by omega
    simpa [e] using hfree j (by omega)

theorem stackOk_pop {s : State} (hsp : 0 < s.sp.val) (h : s.stackOk) : (s.pop hsp).stackOk := by
  obtain ⟨hlive, hfree⟩ := h
  constructor
  · intro j hj
    simp only [State.pop_sp] at hj
    have e : s.sp.val - 1 ≠ j.val := by omega
    simpa [e] using hlive j (by omega)
  · intro j hj
    simp only [State.pop_sp] at hj
    by_cases e : s.sp.val - 1 = j.val
    · simp [e]
    · simpa [e] using hfree j (by omega)

theorem exec_stackOk {i : Instr} {s t : State} (hpc : s.pc.toNat ≤ 0xFFE) (h : s.stackOk) (e : exec i s = .next t) :
    t.stackOk := by
  rcases exec_cases e with ⟨c, w, -, rfl⟩ | ⟨hn, hf⟩
  · exact h
  cases i
  case ret =>
    by_cases hs : 0 < s.sp.val
    · cases (exec_ret_pop hs).symm.trans e
      exact stackOk_pop hs h
    · cases (exec_ret_empty (by omega)).symm.trans e
      exact h
  case call nnn =>
    cases (exec_call_push nnn (faultOf_call_none.mp hn)).symm.trans e
    have h2 := toNat_pc_add_two hpc
    exact stackOk_push (a := s.pc + 2#16) (faultOf_call_none.mp hn) (by omega) (by omega) h
  all_goals exact stackOk_congr (hf .stack (by simp [writes, mayWrite])) (hf .sp (by simp [writes, mayWrite])) h

/-! The wait: only `LD Vx, K` begins one. -/

theorem exec_waitTarget {i : Instr} {s t : State} (h : s.waiting = false → s.waitTarget = 0)
    (e : exec i s = .next t) : t.waiting = false → t.waitTarget = 0 := by
  rcases exec_cases e with ⟨c, w, -, rfl⟩ | ⟨hn, hf⟩
  · exact h
  cases i
  case ldVxK x => cases e; exact fun hw => nomatch hw
  all_goals
    rw [hf .waiting (by simp [writes, mayWrite]), hf .waitTarget (by simp [writes, mayWrite])]
    exact h

end Sys2Proof.Machine
end

section
/-! ### What no instruction reads: `ST` and the other agents (10_state.md R35, 42_register_alu.md R172) -/

namespace Sys2Proof.Machine

/-- The state with `ST` and the record of the other agents put through `g` and `h`. -/
def State.mapHidden (g : Byte → Byte) (h : Env → Env) (s : State) : State := { s with st := g s.st, env := h s.env }

theorem accessing_mapHidden {g : Byte → Byte} {h : Env → Env} {s t t' : State} {len : Nat}
    (ht : t' = t.mapHidden g h) : (s.mapHidden g h).accessing len t' = (s.accessing len t).mapHidden g h := by
  subst ht
  rcases accessing_cases s t len with ⟨hf, e⟩ | ⟨hf, e⟩ <;> rw [e]
  · exact accessing_fits _ _ len hf
  · exact accessing_faults _ _ len hf

theorem skipOnKey_mapHidden (g : Byte → Byte) (h : Env → Env) (s : State) (x : Index) (held : Bool) :
    (s.mapHidden g h).skipOnKey x held = (s.skipOnKey x held).mapHidden g h := by
  by_cases hk : s.v[x].toNat < 16
  · rw [skipOnKey_skip held hk]
    exact skipOnKey_skip (s := s.mapHidden g h) held hk
  · rw [skipOnKey_raise held (Nat.not_lt.mp hk)]
    exact skipOnKey_raise (s := s.mapHidden g h) held (Nat.not_lt.mp hk)

/-- Every instruction but `LD ST, Vx` and `RND` passes `ST` and the other agents' record through. -/
theorem exec_mapHidden {i : Instr} {s t : State} (g : Byte → Byte) (h : Env → Env) (hst : ∀ x, i ≠ .ldStVx x)
    (hrnd : ∀ x kk, i ≠ .rnd x kk) (e : exec i s = .next t) :
    exec i (s.mapHidden g h) = .next (t.mapHidden g h) := by
  cases i with
  | ldStVx x => exact absurd rfl (hst x)
  | rnd x kk => exact absurd rfl (hrnd x kk)
  | ret =>
    by_cases hs : 0 < s.sp.val
    · cases (exec_ret_pop hs).symm.trans e
      exact exec_ret_pop (s := s.mapHidden g h) hs
    · cases (exec_ret_empty (by omega)).symm.trans e
      exact exec_ret_empty (s := s.mapHidden g h) (Nat.eq_zero_of_not_pos hs)
  | call nnn =>
    by_cases hs : s.sp.val < 16
    · cases (exec_call_push nnn hs).symm.trans e
      exact exec_call_push (s := s.mapHidden g h) nnn hs
    · have hfull : s.sp.val = 16 := by omega
      cases (exec_call_full nnn hfull).symm.trans e
      exact exec_call_full (s := s.mapHidden g h) nnn hfull
  | addI x =>
    by_cases hi : s.i.toNat + s.v[x].toNat ≤ 0xFFFF
    · cases (exec_addI_sum x hi).symm.trans e
      exact exec_addI_sum (s := s.mapHidden g h) x hi
    · cases (exec_addI_overflow x (Nat.not_le.mp hi)).symm.trans e
      exact exec_addI_overflow (s := s.mapHidden g h) x (Nat.not_le.mp hi)
  | addReg x y =>
    by_cases hc : 255 < s.v[x].toNat + s.v[y].toNat
    · cases (exec_addReg_carry x y hc).symm.trans e
      exact exec_addReg_carry (s := s.mapHidden g h) x y hc
    · cases (exec_addReg_noCarry x y (Nat.not_lt.mp hc)).symm.trans e
      exact exec_addReg_noCarry (s := s.mapHidden g h) x y (Nat.not_lt.mp hc)
  | skp x => cases e; exact congrArg Host.Outcome.next (skipOnKey_mapHidden g h s x true)
  | sknp x => cases e; exact congrArg Host.Outcome.next (skipOnKey_mapHidden g h s x false)
  | drw x y n => cases e; exact congrArg Host.Outcome.next (accessing_mapHidden rfl)
  | ldB x => cases e; exact congrArg Host.Outcome.next (accessing_mapHidden rfl)
  | storeRegs x => cases e; exact congrArg Host.Outcome.next (accessing_mapHidden rfl)
  | loadRegs x => cases e; exact congrArg Host.Outcome.next (accessing_mapHidden rfl)
  | _ => cases e; rfl

/-- Settles O22: `LD ST, Vx` overwrites the value, `RND` passes it through as every other instruction does. -/
theorem noInstructionReadsTheSoundTimer : Obligations.NoInstructionReadsTheSoundTimer := by
  intro i b s t e
  cases i
  case ldStVx x => cases e; rfl
  case rnd x kk => cases e; rfl
  all_goals exact exec_mapHidden (fun _ => b) id (by simp) (by simp) e

/-- Settles O23: `LD ST, Vx` does not touch the record either. -/
theorem onlyRndDependsOnTheRandomSource : Obligations.OnlyRndDependsOnTheRandomSource := by
  intro i d s t hrnd e
  by_cases hst : ∃ x, i = .ldStVx x
  · obtain ⟨x, rfl⟩ := hst
    cases e
    rfl
  · exact exec_mapHidden id (fun v => { v with draws := d }) (fun x hx => hst ⟨x, hx⟩) hrnd e

end Sys2Proof.Machine
end

section
/-! ### Cycles and steps (40_fetch_decode_cycle.md R120 to R128, 60_exceptions.md R240 to R257) -/

namespace Sys2Proof.Machine

/-! What a tick changes, and what a cycle answers. -/

theorem tick_frame (s : State) : FrameExcept [.dt, .st, .env] s s.tick := (tick_spec s).2.2.2

theorem noteCycle_frame (s : State) : FrameExcept [.env] s s.noteCycle := by
  intro p hp; cases p <;> simp [Unchanged] at hp ⊢

/-- A cycle that the gates stop changes nothing (R121, R122). -/
theorem cycle_gated {s : State} (h : s.faulted = true ∨ s.waiting = true) : cycle s = .next s := by
  unfold cycle
  rcases h with h | h
  · rw [if_pos h]
  · rw [if_pos h, ite_self]

/-- Every cycle answers a next state. -/
theorem cycle_next (s : State) : ∃ u, cycle s = .next u := by
  by_cases hg : s.faulted = true ∨ s.waiting = true
  · exact ⟨s, cycle_gated hg⟩
  have hr : s.running := by simpa using hg
  by_cases hp : s.pc.toNat ≤ 0xFFE
  · obtain ⟨t, e, -⟩ := exec_frame (decode s.fetch) s
    exact ⟨_, cycle_running hr hp e⟩
  · exact ⟨_, cycle_outOfRange hr (Nat.not_le.mp hp)⟩

/-- Settles O8: both gates come before the fetch. -/
theorem gatedCycleChangesNothing : Obligations.GatedCycleChangesNothing := fun _ => cycle_gated

/-- Settles O15: every handler answers, so only the contract test of `init` and `load` can refuse. -/
theorem everyInstructionAndStepAnswersNext : Obligations.EveryInstructionAndStepAnswersNext := by
  constructor
  · intro i s
    obtain ⟨t, e, -⟩ := exec_frame i s
    exact ⟨t, e⟩
  · intro s
    rw [step_eq]
    cases s.nextTransaction with
    | reset => exact .inl ⟨_, rfl⟩
    | updateInput keys => exact .inl ⟨_, rfl⟩
    | display => exact .inl ⟨_, rfl⟩
    | cycle => exact .inl (cycle_next _)
    | init =>
      by_cases hc : (s.env.inited || s.env.cycled) = true
      · exact .inr ⟨if_pos hc, .inl ⟨rfl, by simpa using hc⟩⟩
      · exact .inl ⟨_, if_neg hc⟩
    | load bytes =>
      by_cases hc : (s.env.loaded || s.env.cycled) = true
      · exact .inr ⟨if_pos hc, .inr ⟨bytes, rfl, by simpa using hc⟩⟩
      · exact .inl ⟨_, if_neg hc⟩

/-- Settles O6: the step is the cycle of the begun machine, whose two bytes at `PC` are the opcode. -/
theorem stepRunsTheDecodedInstruction : Obligations.StepRunsTheDecodedInstruction := by
  intro s i hr hh hp hd
  have hi : decode (begun s).fetch = i := (Prod.mk.inj (Except.ok.inj hd)).1
  obtain ⟨t, e, -⟩ := exec_frame i (begun s)
  refine ⟨t, e, ?_⟩
  rw [step_cycle hh]
  exact cycle_running hr hp (hi ▸ e)

/-! The word that `withFetchWord` stores (log 21). -/

/-- All 16 bits of an opcode are taken from a table word. -/
theorem tableOpcode_toNat (op : Word) : tableOpcode 16 op.toNat = op := by
  rw [tableOpcode, Nat.mod_eq_of_lt op.isLt, BitVec.ofNat_toNat, BitVec.setWidth_eq]

/-- The next fetch of an opened state is in range. -/
theorem openFetch_pc_le (s : State) : s.openFetch.pc.toNat ≤ 0xFFE := by
  simp only [State.openFetch]
  split
  · decide
  · next h => exact Nat.not_lt.mp h

/-- An opcode stored at `PC` is the word there. -/
theorem storeAtPc_bytes {s : State} (hm : s.mem.wf = true) (hp : s.pc.toNat ≤ 0xFFE) (op : Word) :
    (s.storeAtPc op).mem.read s.pc.toNat = highByte op ∧ (s.storeAtPc op).mem.read (s.pc.toNat + 1) = lowByte op := by
  have hfit : s.pc.toNat + [highByte op, lowByte op].length ≤ Config.memSize := by
    simp only [List.length_cons, List.length_nil, Config.memSize]; omega
  simp [Memory.read_writeBytes hm hfit]

/-- Settles O7: the opened state runs, and the two bytes at its `PC` are the stored word. -/
theorem fetchWordIsRunNext : Obligations.FetchWordIsRunNext := by
  intro s op hm
  have hp := openFetch_pc_le s
  obtain ⟨hhi, hlo⟩ := storeAtPc_bytes (s := s.openFetch) hm hp op
  refine stepRunsTheDecodedInstruction (s.withFetchWord 16 op.toNat) (decode op) ⟨rfl, rfl⟩ (.inl rfl) hp ?_
  rw [State.withFetchWord, tableOpcode_toNat, State.storeAtPc_pc, hhi, hlo]
  exact decodeBytes_opcode op []

/-- Settles O9: a running machine's cycle ends with the tick when the handler raised no fault. -/
theorem tickFollowsEveryExecutedInstruction : Obligations.TickFollowsEveryExecutedInstruction := by
  intro s t hr hp e hf
  obtain ⟨hdt, hst, henv, hframe⟩ := tick_spec t
  refine ⟨t.tick, ?_, hdt, hst, ?_, hframe⟩
  · rw [cycle_running hr hp e, finish_of_ok t hf]
  · rw [henv]
    split <;> rfl

/-- Settles O31: the handler of an unrecognized opcode answers its own state. -/
theorem unrecognizedOpcodeOnlyTicks : Obligations.UnrecognizedOpcodeOnlyTicks := by
  refine ⟨fun op s => ⟨s, rfl, frame_refl _ s⟩, fun s op hr hp hd => ?_⟩
  have e : exec (decode s.fetch) s = .next s := by rw [hd]; rfl
  obtain ⟨hdt, hst, -, hframe⟩ := tick_spec s
  exact ⟨s.tick, by rw [cycle_running hr hp e, finish_of_ok s hr.1], hdt, hst, hframe⟩

/-- A cycle that the fault table names raises that fault, and the timers stand still (R242, R244). -/
theorem cycle_raises {s : State} {c : FaultCause} {info : Nat} (hr : s.running) (h : cycleFault s = some (c, info)) :
    ∃ w : Word, w.toNat = info ∧ cycle s = .next (s.raise c w) := by
  unfold cycleFault at h
  split at h
  · next hp =>
    cases h
    exact ⟨s.pc, rfl, cycle_outOfRange hr hp⟩
  · next hp =>
    obtain ⟨w, hw, e⟩ := exec_raises h
    exact ⟨w, hw, cycle_running hr (Nat.not_lt.mp hp) e⟩

/-- Where the fault table names no fault, the fetch is in range and the instruction raises none (R244). -/
theorem cycleFault_none {s : State} (h : cycleFault s = none) :
    s.pc.toNat ≤ 0xFFE ∧ faultOf (decode s.fetch) s = none := by
  unfold cycleFault at h
  split at h
  · cases h
  · next hp => exact ⟨Nat.not_lt.mp hp, h⟩

/-- A cycle that the fault table does not name runs its instruction, which raises none, and ticks. -/
theorem cycle_works {s : State} (hr : s.running) (h : cycleFault s = none) :
    ∃ t, exec (decode s.fetch) s = .next t ∧ FrameExcept (writes (decode s.fetch)) s t ∧ cycle s = .next t.tick := by
  obtain ⟨hp, hn⟩ := cycleFault_none h
  obtain ⟨t, e, hf⟩ := exec_works hn
  have hlatch := hf .fault (fault_notMem_writes _)
  exact ⟨t, e, hf, by rw [cycle_running hr hp e, finish_of_ok t (hlatch.1.trans hr.1)]⟩

/-- Settles O10: the two cases of the fault table. -/
theorem cycleFaultsExactlyAsTabled : Obligations.CycleFaultsExactlyAsTabled := by
  intro s hr
  cases h : cycleFault s with
  | some f =>
    obtain ⟨w, hw, e⟩ := cycle_raises hr h
    exact ⟨_, e, hw ▸ raise_latched s f.1 w, raise_frame s f.1 w⟩
  | none =>
    obtain ⟨t, -, hf, e⟩ := cycle_works hr h
    obtain ⟨hfl, hc, hi⟩ := hf .fault (fault_notMem_writes _)
    exact ⟨t.tick, e, hfl.trans hr.1, hc, hi⟩

end Sys2Proof.Machine
end

section
/-! ### Reset and the invariant (10_state.md R24 to R33) -/

namespace Sys2Proof.Machine

/-- Settles O16: the reset state is a literal; every element of its vectors is the replicated one. -/
theorem resetValues : Obligations.ResetValues := by
  refine ⟨fun a => rfl, ?_, rfl, rfl, ?_, rfl, rfl, rfl, ?_, ?_, rfl, rfl, rfl, rfl, rfl⟩ <;> intro k <;>
    simp [State.reset]

/-- Settles O12: `restart` is the reset state but for the other agents' record. -/
theorem resetGivesTheResetState : Obligations.ResetGivesTheResetState := by
  intro s
  refine ⟨s.restart, rfl, ?_, rfl, rfl⟩
  intro p hp
  cases p <;> simp [Unchanged, State.restart] at hp ⊢

/-- Settles O17: no stack slot is live at reset and the latch is clear. -/
theorem resetMeetsTheInvariant : Obligations.ResetMeetsTheInvariant := by
  unfold Obligations.ResetMeetsTheInvariant
  decide

/-! The invariant does not speak of the timers, the latch of keys, or the other agents. -/

theorem inv_withEnv {s : State} (h : s.Inv) (e : Env) : { s with env := e }.Inv := h

theorem inv_tick {s : State} (h : s.Inv) : s.tick.Inv := h

theorem inv_setKeys {s : State} (h : s.Inv) (keys : Keys) : (s.setKeys keys).Inv := h

/-- While no fault is latched, the invariant is a matter of memory, `PC`, the stack and the wait. -/
theorem inv_of_unfaulted {s t : State} (h : s.Inv) (hf : s.faulted = false) (hlatch : Unchanged s t .fault)
    (hm : t.mem.wf = true) (hpc : t.pc.toNat ≤ 0x10FE) (hstack : t.stackOk)
    (hwait : t.waiting = false → t.waitTarget = 0) : t.Inv := by
  obtain ⟨-, -, -, -, -, hl⟩ := h
  obtain ⟨hc, hi⟩ := latch_clear hl hf
  obtain ⟨ef, ec, ei⟩ := hlatch
  exact ⟨hm, hpc, hstack.1, hstack.2, hwait, latchMeaning_clear (ef.trans hf) (ec.trans hc) (ei.trans hi)⟩

/-! What each transaction does to the invariant. -/

/-- The boot transactions write memory only. -/
theorem inv_setMem {s : State} {m : Memory} (h : s.Inv) (hf : s.faulted = false) (hm : m.wf = true) :
    (s.setMem m).Inv := by
  have ⟨_, hpc, hlive, hfree, hw, _⟩ := h
  exact inv_of_unfaulted (t := s.setMem m) h hf ⟨rfl, rfl, rfl⟩ hm hpc ⟨hlive, hfree⟩ hw

theorem inv_initWith {s : State} (h : s.Inv) (glyphs : Vector Byte 75) : (s.initWith glyphs).Inv := by
  cases hf : s.faulted with
  | true => rw [State.initWith, if_pos hf]; exact h
  | false =>
    rw [initWith_ok glyphs hf]
    exact inv_setMem h hf (Memory.writeBytes_wf h.1)

/-- `FAULT_INFO` of a program that is too large (R241). -/
theorem toNat_loadInfo (n : Nat) : (loadInfo n).toNat = min n 0xFFFF := by
  rw [loadInfo, BitVec.toNat_ofNat, Nat.mod_eq_of_lt (by omega)]

theorem inv_load {s : State} (h : s.Inv) (bytes : List Byte) : (s.load bytes).Inv := by
  cases hf : s.faulted with
  | true => rw [State.load, if_pos hf]; exact h
  | false =>
    by_cases hl : bytes.length ≤ 3584
    · rw [load_ok hf hl]
      exact inv_setMem h hf (Memory.writeBytes_wf h.1)
    · rw [load_tooLarge hf (Nat.not_le.mp hl)]
      obtain ⟨hm, hpc, hlive, hfree, hw, -⟩ := h
      refine ⟨hm, hpc, hlive, hfree, hw, ?_⟩
      have hinfo : Config.maxProgramBytes < (loadInfo bytes.length).toNat := by
        rw [toNat_loadInfo, Config.maxProgramBytes]
        omega
      simp [latchMeaning, hinfo]

/-- Everything `update_input` does to an unfaulted machine (R248, R249). -/
theorem updateInput_cases {s : State} (hf : s.faulted = false) (keys : Keys) :
    ((s.waiting = false ∨ risingKeys s.keys keys = []) ∧ s.updateInput keys = s.setKeys keys) ∨
    (s.waiting = true ∧ ∃ k ∈ risingKeys s.keys keys, s.updateInput keys = (s.endWait k).setKeys keys) := by
  have hu : s.updateInput keys = (s.resolveWait (risingKeys s.keys keys)).setKeys keys := by
    rw [State.updateInput, hf]; rfl
  rw [hu]
  cases hr : risingKeys s.keys keys with
  | nil => exact .inl ⟨.inr rfl, rfl⟩
  | cons k ks =>
    cases hw : s.waiting with
    | false => exact .inl ⟨.inl rfl, by simp [State.resolveWait, hw]⟩
    | true => exact .inr ⟨rfl, selectKey k ks, selectKey_mem k ks, by simp [State.resolveWait, hw]⟩

theorem inv_endWait {s : State} (h : s.Inv) (hf : s.faulted = false) (k : Index) : (s.endWait k).Inv := by
  have ⟨hm, hpc, hlive, hfree, _, _⟩ := h
  exact inv_of_unfaulted (t := s.endWait k) h hf ⟨rfl, rfl, rfl⟩ hm hpc ⟨hlive, hfree⟩ fun _ => rfl

theorem inv_updateInput {s : State} (h : s.Inv) (keys : Keys) : (s.updateInput keys).Inv := by
  cases hf : s.faulted with
  | true => rw [State.updateInput, if_pos hf]; exact h
  | false =>
    rcases updateInput_cases hf keys with ⟨-, e⟩ | ⟨-, k, -, e⟩ <;> rw [e]
    · exact inv_setKeys h keys
    · exact inv_setKeys (inv_endWait h hf k) keys

/-- No instruction leaves `PC` above 0x10FE, the highest target of `JP V0, nnn` (R24). -/
theorem pcAfter_le {s : State} (i : Instr) (hpc : s.pc.toNat ≤ 0xFFE) (hs : s.stackOk) : pcAfter i s ≤ 0x10FE := by
  cases i with
  | ret =>
    simp only [pcAfter]
    split
    · next h =>
      have hlt : s.sp.val - 1 < 16 := by omega
      rw [stack_getD s hlt]
      exact (hs.1 ⟨s.sp.val - 1, hlt⟩ (Nat.sub_lt h Nat.one_pos)).2.trans (by decide)
    · omega
  | jp nnn | call nnn => simp only [pcAfter]; omega
  | jpV0 nnn => simp only [pcAfter]; omega
  | seImm | sneImm | seReg | sneReg | skp | sknp => simp only [pcAfter]; split <;> omega
  | _ => simp only [pcAfter]; omega

theorem inv_exec {i : Instr} {s t : State} (h : s.Inv) (hr : s.running) (hpc : s.pc.toNat ≤ 0xFFE)
    (hn : faultOf i s = none) (e : exec i s = .next t) (hf : FrameExcept (writes i) s t) : t.Inv := by
  have ⟨hm, _, hlive, hfree, hw, _⟩ := h
  have hs : s.stackOk := ⟨hlive, hfree⟩
  exact inv_of_unfaulted h hr.1 (hf .fault (fault_notMem_writes i)) (exec_mem_wf hm e)
    (exec_pc hpc hn e ▸ pcAfter_le i hpc hs) (exec_stackOk hpc hs e) (exec_waitTarget hw e)

/-- The causes a cycle can raise (R241). -/
theorem cycleFault_cause {s : State} {c : FaultCause} {info : Nat} (h : cycleFault s = some (c, info)) :
    c ≠ .noFault ∧ c ≠ .loadTooLarge := by
  unfold cycleFault at h
  split at h
  · cases h; decide
  · cases hi : decode s.fetch <;> rw [hi] at h
    case call | addI | drw | ldB | storeRegs | loadRegs | skp | sknp =>
      obtain ⟨-, ⟨⟩⟩ := Option.ite_none_right_eq_some.mp h
      decide
    all_goals cases h

/-- A raised fault leaves what the fault table reads, so the table still names it (R242). -/
theorem inv_raise {s : State} {c : FaultCause} {w : Word} (h : s.Inv) (hc : cycleFault s = some (c, w.toNat)) :
    (s.raise c w).Inv := by
  obtain ⟨hm, hpc, hlive, hfree, hw, -⟩ := h
  obtain ⟨h0, h6⟩ := cycleFault_cause hc
  exact ⟨hm, hpc, hlive, hfree, hw, latchMeaning_cycleFault rfl hc h0 h6⟩

theorem inv_cycle {s u : State} (h : s.Inv) (e : cycle s = .next u) : u.Inv := by
  by_cases hg : s.faulted = true ∨ s.waiting = true
  · cases (cycle_gated hg).symm.trans e
    exact h
  have hr : s.running := by simpa using hg
  cases hc : cycleFault s with
  | some f =>
    obtain ⟨w, hw, e'⟩ := cycle_raises hr hc
    cases e'.symm.trans e
    exact inv_raise h (by rw [hc, hw])
  | none =>
    obtain ⟨hp, hn⟩ := cycleFault_none hc
    obtain ⟨t, et, hf, e'⟩ := cycle_works hr hc
    cases e'.symm.trans e
    exact inv_tick (inv_exec h hr hp hn et hf)

/-- Settles O18: transaction by transaction; the notes of the other agents do not matter. -/
theorem everyStepKeepsTheInvariant : Obligations.EveryStepKeepsTheInvariant := by
  intro s t h e
  have hs : s.taken.Inv := inv_withEnv h _
  rcases transact_cases (step_eq s ▸ e) with ⟨-, rfl⟩ | ⟨-, -, -, rfl⟩ | ⟨bytes, -, -, -, rfl⟩ | ⟨keys, -, rfl⟩ |
    ⟨-, e⟩ | ⟨-, rfl⟩
  · exact inv_withEnv resetMeetsTheInvariant _
  · exact inv_withEnv (inv_initWith hs _) _
  · exact inv_withEnv (inv_load hs bytes) _
  · exact inv_updateInput hs keys
  · exact inv_cycle (inv_withEnv hs _) e
  · exact inv_withEnv hs _

end Sys2Proof.Machine
end

section
/-! ### Faulted, stalled and waiting machines (60_exceptions.md R243, R248 to R250, R257) -/

namespace Sys2Proof.Machine

/-! ### The latch of a faulted machine -/

theorem noteInit_frame (s : State) : FrameExcept [.env] s s.noteInit := by
  intro p hp; cases p <;> simp [Unchanged] at hp ⊢

theorem noteLoad_frame (s : State) : FrameExcept [.env] s s.noteLoad := by
  intro p hp; cases p <;> simp [Unchanged] at hp ⊢

theorem noteDisplay_frame (s : State) : FrameExcept [.env] s s.noteDisplay := by
  intro p hp; cases p <;> simp [Unchanged] at hp ⊢

theorem init_of_faulted {s : State} (h : s.faulted = true) : s.init = s := if_pos h

theorem load_of_faulted {s : State} (h : s.faulted = true) (bytes : List Byte) : s.load bytes = s := if_pos h

theorem updateInput_of_faulted {s : State} (h : s.faulted = true) (keys : Keys) : s.updateInput keys = s := if_pos h

/-- Settles O11: every transaction but `reset` tests the latch first, then only notes are made. -/
theorem faultIsTerminal : Obligations.FaultIsTerminal := by
  intro s u tr hf hne e
  rcases transact_cases e with ⟨rfl, -⟩ | ⟨rfl, -, -, rfl⟩ | ⟨bytes, rfl, -, -, rfl⟩ | ⟨keys, rfl, rfl⟩ |
    ⟨rfl, e⟩ | ⟨rfl, rfl⟩
  · exact absurd rfl hne
  · rw [init_of_faulted hf]
    exact ⟨noteInit_frame s, nofun⟩
  · rw [load_of_faulted hf]
    exact ⟨noteLoad_frame s, nofun⟩
  · rw [updateInput_of_faulted hf]
    exact ⟨frame_refl _ s, nofun⟩
  · cases (cycle_gated (s := s.noteCycle) (.inl hf)).symm.trans e
    exact ⟨noteCycle_frame s, nofun⟩
  · exact ⟨noteDisplay_frame s, fun _ => rfl⟩

/-! ### A stalled machine -/

/-- The instruction of a stalled machine answers the state it is given. -/
theorem exec_of_stalled {s : State} (h : s.stalled = true) : exec (decode s.fetch) s = .next s := by
  unfold State.stalled at h
  split at h
  · next hd => rw [hd]; rfl
  · next hd => rw [hd]; exact exec_ret_empty (beq_iff_eq.mp h)
  · next nnn hd =>
    have hpc : zextAddr nnn = s.pc := BitVec.eq_of_toNat_eq (by rw [toNat_zextAddr]; exact beq_iff_eq.mp h)
    rw [hd, exec, execJp, hpc]; rfl
  · next nnn hd =>
    have hpc : zextAddr nnn + zextByte (s.readV 0) = s.pc :=
      BitVec.eq_of_toNat_eq (by rw [toNat_jpV0_target]; exact beq_iff_eq.mp h)
    rw [hd, exec, execJpV0, hpc]; rfl
  all_goals cases h

/-- One step of a stalled machine to which the host does nothing is one tick. -/
theorem step_of_stalled {s : State} (hr : s.running) (hs : s.env.script = []) (hp : s.pc.toNat ≤ 0xFFE)
    (h : s.stalled = true) : step s = .next s.noteCycle.tick := by
  have e : exec (decode s.noteCycle.fetch) s.noteCycle = .next s.noteCycle := exec_of_stalled (s := s.noteCycle) h
  rw [step_unscripted hs, cycle_running (s := s.noteCycle) hr hp e, finish_of_ok s.noteCycle hr.1]

/-- How often a timer at `a` is found at 1 in `n + 1` ticks: at the first one, or later. -/
theorem beeps_succ (a n : Nat) :
    (if 1 ≤ a ∧ a ≤ n + 1 then 1 else 0) = (if a = 1 then 1 else 0) + (if 1 ≤ a - 1 ∧ a - 1 ≤ n then 1 else 0) := by
  split <;> split <;> split <;> omega

/-- Settles O19, by induction on the number of cycles: a stall is kept by a tick. -/
theorem stalledMachineOnlyRunsItsTimersDown : Obligations.StalledMachineOnlyRunsItsTimersDown := by
  intro n
  induction n with
  | zero =>
    intro s _ _ _ _
    refine ⟨s, rfl, rfl, rfl, ?_, frame_refl _ s⟩
    rw [if_neg (by omega), Nat.add_zero]
  | succ n ih =>
    intro s hr hs hp h
    have hstep := step_of_stalled hr hs hp h
    have hdt : s.noteCycle.tick.dt.toNat = s.dt.toNat - 1 := toNat_countDown _
    have hst : s.noteCycle.tick.st.toNat = s.st.toNat - 1 := toNat_countDown _
    have hbeeps : s.noteCycle.tick.env.beeps = if s.st = 1#8 then s.env.beeps + 1 else s.env.beeps := rfl
    obtain ⟨t, e, tdt, tst, tbeeps, tframe⟩ := ih s.noteCycle.tick hr hs hp h
    refine ⟨t, (run_succ n hstep).trans e, ?_, ?_, ?_, ?_⟩
    · rw [tdt, hdt]; omega
    · rw [tst, hst]; omega
    · have hone : (s.st = 1#8) ↔ s.st.toNat = 1 := by rw [← BitVec.toNat_inj]; rfl
      rw [tbeeps, hst, hbeeps, beeps_succ]
      by_cases h1 : s.st = 1#8
      · rw [if_pos h1, if_pos (hone.mp h1)]; omega
      · rw [if_neg h1, if_neg (mt hone.mpr h1)]; omega
    · exact ((noteCycle_frame s).trans ((tick_frame _).trans tframe)).mono (by decide)

/-! ### A waiting machine -/

/-- Settles O20, by induction on the number of cycles: the gate stops each. -/
theorem waitingMachineStaysAsItIs : Obligations.WaitingMachineStaysAsItIs := by
  intro n
  induction n with
  | zero => exact fun s _ _ => ⟨s, rfl, frame_refl _ s, rfl⟩
  | succ n ih =>
    intro s hw hs
    have hstep : step s = .next s.noteCycle := by
      rw [step_unscripted hs]
      exact cycle_gated (s := s.noteCycle) (.inr hw)
    obtain ⟨t, e, tframe, tbeeps⟩ := ih s.noteCycle hw hs
    exact ⟨t, (run_succ n hstep).trans e, frame_trans (noteCycle_frame s) tframe, tbeeps⟩

theorem initWith_waiting (glyphs : Vector Byte 75) (s : State) : (s.initWith glyphs).waiting = s.waiting := by
  unfold State.initWith
  split <;> rfl

theorem load_waiting (s : State) (bytes : List Byte) : (s.load bytes).waiting = s.waiting := by
  unfold State.load
  split
  · rfl
  split <;> rfl

/-- A rising key makes the list of rising keys non-empty. -/
theorem risingKeys_ne_nil {old new : Keys} (h : ∃ k : Index, old[k] = false ∧ new[k] = true) :
    risingKeys old new ≠ [] :=
  fun hn => (risingKeys_nil old new).mp hn h

/-- `update_input` ends the wait of an unfaulted machine exactly when a key rises (R249). -/
theorem updateInput_ends_wait_iff {s : State} (hf : s.faulted = false) (hw : s.waiting = true) (keys : Keys) :
    (s.updateInput keys).waiting = false ↔ ∃ k : Index, s.keys[k] = false ∧ keys[k] = true := by
  rcases updateInput_cases hf keys with ⟨hno, e⟩ | ⟨-, k, hk, e⟩
  · have hnil : risingKeys s.keys keys = [] := hno.resolve_left (by rw [hw]; decide)
    rw [e, State.setKeys_waiting, hw]
    exact iff_of_false (by decide) ((risingKeys_nil _ _).mp hnil)
  · rw [e]
    exact iff_of_true rfl ⟨k, (mem_risingKeys _ _ k).mp hk⟩

/-- Settles O21: every transaction but `reset` and `update_input` leaves the wait as it is. -/
theorem onlyRisingKeyEndsTheWait : Obligations.OnlyRisingKeyEndsTheWait := by
  intro s t tr hf hw e
  have waits : ∀ {u : State}, u.waiting = s.waiting → (u.waiting = false ↔ False) := fun {u} hu => by simp [hu, hw]
  rcases transact_cases e with ⟨rfl, rfl⟩ | ⟨rfl, -, -, rfl⟩ | ⟨bytes, rfl, -, -, rfl⟩ | ⟨keys, rfl, rfl⟩ |
    ⟨rfl, e⟩ | ⟨rfl, rfl⟩
  · exact iff_of_true rfl (.inl rfl)
  · rw [waits (u := s.init.noteInit) (initWith_waiting _ s)]; simp
  · rw [waits (u := (s.load bytes).noteLoad) (load_waiting s bytes)]; simp
  · rw [updateInput_ends_wait_iff hf hw]; simp
  · cases (cycle_gated (s := s.noteCycle) (.inr hw)).symm.trans e
    rw [waits (u := s.noteCycle) rfl]; simp
  · rw [waits (u := s.noteDisplay) rfl]; simp

/-- Settles O53: the delivered key is one of the rising ones, whichever is chosen. -/
theorem updateInputReplacesTheLatch : Obligations.UpdateInputReplacesTheLatch := by
  intro s keys hf
  refine ⟨s.updateInput keys, rfl, ?_⟩
  rcases updateInput_cases hf keys with ⟨hno, e⟩ | ⟨hw, k, hk, e⟩ <;> rw [e]
  · refine ⟨fun _ => rfl, fun _ => ?_, fun hw hrise => ?_⟩
    · intro p hp; cases p <;> simp [Unchanged] at hp ⊢
    · rcases hno with hno | hno
      · exact absurd (hno.symm.trans hw) (by decide)
      · exact absurd hno (risingKeys_ne_nil hrise)
  · obtain ⟨hk0, hk1⟩ := (mem_risingKeys _ _ k).mp hk
    refine ⟨fun _ => rfl, fun hno => ?_, fun _ _ => ⟨k, hk0, hk1, ?_, rfl, rfl, fun r hr => ?_, ?_⟩⟩
    · rcases hno with hno | hno
      · exact absurd (hno.symm.trans hw) (by decide)
      · exact absurd ⟨hk0, hk1⟩ (hno k)
    · have hv : ((s.endWait k).setKeys keys).v[s.waitTarget] = BitVec.ofNat 8 k.val := by simp
      rw [hv, BitVec.toNat_ofNat, Nat.mod_eq_of_lt (by omega)]
    · have hne : s.waitTarget.val ≠ r.val := fun h => hr (Fin.ext h.symm)
      simp [hne]
    · intro p hp; cases p <;> simp [Unchanged] at hp ⊢

end Sys2Proof.Machine
end

section
/-! ### Jumps, calls, returns and register skips (41_control_flow.md) -/

namespace Sys2Proof.Machine

/-- Settles O24: the handler is one write of `PC`. -/
theorem jumpGoesToItsAddress : Obligations.JumpGoesToItsAddress :=
  fun nnn s => ⟨decode_jp nnn, _, rfl, toNat_zextAddr nnn, setPc_frame s _⟩

/-- Settles O30: the sum of a 12-bit address and a byte does not wrap. -/
theorem jumpWithOffsetAddsVZero : Obligations.JumpWithOffsetAddsVZero :=
  fun nnn s => ⟨decode_jpV0 nnn, _, rfl, toNat_jpV0_target nnn _, setPc_frame s _⟩

/-- Settles O29: each handler is one skip, whose test is the comparison of the two registers as numbers. -/
theorem registerSkipsMoveByFourOrTwo : Obligations.RegisterSkipsMoveByFourOrTwo := by
  intro x y d s
  constructor
  · exact ⟨decode_seReg x y d, _, rfl, skipIf_spec s (readV_beq_iff s x (s.readV y))⟩
  · exact ⟨decode_sneReg x y d, _, rfl, skipIf_spec s (readV_bne_iff s x (s.readV y))⟩

/-! The slot that a push or a pop writes, and the others. -/

section
variable {s : State} {j j' : Index}

theorem push_stack_same (a : Word) (h : s.sp.val < 16) (hj : s.sp.val = j.val) : (s.push a h).stack[j] = a := by
  simp [hj]

theorem push_stack_other (a : Word) (h : s.sp.val < 16) (hj : s.sp.val = j.val) (hne : j' ≠ j) :
    (s.push a h).stack[j'] = s.stack[j'] := by
  have hv : s.sp.val ≠ j'.val := fun e => hne (Fin.ext (e.symm.trans hj))
  simp [hv]

theorem pop_stack_same (h : 0 < s.sp.val) (hj : s.sp.val = j.val + 1) : (s.pop h).stack[j] = 0#16 := by
  simp [hj]

theorem pop_stack_other (h : 0 < s.sp.val) (hj : s.sp.val = j.val + 1) (hne : j' ≠ j) :
    (s.pop h).stack[j'] = s.stack[j'] := by
  have hv : s.sp.val - 1 ≠ j'.val := fun e => hne (Fin.ext (by omega))
  simp [hv]

theorem pop_pc_eq (h : 0 < s.sp.val) (hj : s.sp.val = j.val + 1) : (s.pop h).pc = s.stack[j] := by
  simp [hj]
end

/-- Settles O25: a push below 16, the fault of the table at 16. -/
theorem callPushesTheReturnAddress : Obligations.CallPushesTheReturnAddress := by
  intro nnn s
  refine ⟨decode_call nnn, fun j hj => ?_, fun hfull => exec_latches (if_pos hfull)⟩
  have h : s.sp.val < 16 := by omega
  refine ⟨_, exec_call_push nnn h, push_stack_same _ h hj, congrArg (· + 1) hj, toNat_zextAddr nnn,
    fun j' hne => push_stack_other _ h hj hne, push_setPc_frame s _ _ h⟩

/-- Settles O26: a pop above 0, nothing at 0. -/
theorem returnPopsOrStalls : Obligations.ReturnPopsOrStalls := by
  intro d s
  refine ⟨decode_ret d, fun j hj => ?_, fun h0 => ⟨s, exec_ret_empty h0, frame_refl _ s⟩⟩
  have h : 0 < s.sp.val := by omega
  exact ⟨_, exec_ret_pop h, Nat.sub_eq_of_eq_add hj, pop_pc_eq h hj, pop_stack_same h hj,
    fun j' hne => pop_stack_other h hj hne, pop_frame s h⟩

/-- Settles O27: the return pops the slot that the call pushed. -/
theorem returnAfterCallComesBack : Obligations.ReturnAfterCallComesBack := by
  intro nnn s j hj
  have h : s.sp.val < 16 := by omega
  refine ⟨_, exec_call_push nnn h, fun u hsp hstack => ?_⟩
  have hu : u.sp.val = j.val + 1 := by rw [hsp]; exact congrArg (· + 1) hj
  have hpos : 0 < u.sp.val := by omega
  refine ⟨_, exec_ret_pop hpos, ?_, ?_, pop_stack_same hpos hu, fun j' hne => ?_⟩
  · rw [pop_pc_eq hpos hu, hstack]
    exact push_stack_same _ h hj
  · exact Fin.ext ((Nat.sub_eq_of_eq_add hu).trans hj.symm)
  · rw [pop_stack_other hpos hu hne, hstack]
    exact push_stack_other _ h hj hne

end Sys2Proof.Machine
end

section
/-! ### Arithmetic with a flag, the random byte and the address sum (42_register_alu.md R167 to R174, R176) -/

namespace Sys2Proof.Machine

theorem writeV_v_same (s : State) (x : Index) (b : Byte) : (s.writeV x b).v[x] = b := by simp

theorem writeV_v_other (s : State) {r x : Index} (b : Byte) (h : r ≠ x) : (s.writeV x b).v[r] = s.v[r] := by
  have hne : x.val ≠ r.val := fun e => h (Fin.ext e.symm)
  simp [hne]

/-- The register of that number holds the byte, however its number is given. -/
theorem writeV_advance_v_eq (s : State) {x r : Index} (b : Byte) (h : x = r) : (s.writeV x b).advance.v[r] = b := by
  subst h
  exact writeV_advance_v_same s x b

/-- Settles O34: with a carry the flag is the last write, without one there is no flag write. -/
theorem addRegistersSetsFlagOnCarryOnly : Obligations.AddRegistersSetsFlagOnCarryOnly := by
  intro x y s
  refine ⟨decode_addReg x y, ?_⟩
  have hsum : (s.readV x + s.readV y).toNat = (s.v[x].toNat + s.v[y].toNat) % 256 := BitVec.toNat_add _ _
  by_cases hc : 255 < s.v[x].toNat + s.v[y].toNat
  · refine ⟨_, exec_addReg_carry x y hc, rfl, writeV_writeV_advance_frame s _ _ _ _, fun r hx hf => ?_, fun hx => ?_,
      fun _ => writeV_v_same _ flagReg _, fun hn => absurd hn (by omega), fun hn => absurd hn (by omega)⟩
    · exact (writeV_v_other _ _ hf).trans (writeV_v_other s _ hx)
    · exact (congrArg BitVec.toNat ((writeV_v_other _ _ hx).trans (writeV_v_same s x _))).trans hsum
  · have hn := Nat.not_lt.mp hc
    obtain ⟨hother, hpc, hframe⟩ := writeV_advance_rest s x (s.readV x + s.readV y)
    refine ⟨_, exec_addReg_noCarry x y hn, hpc, hframe, fun r hx _ => hother r hx, fun _ => ?_,
      fun hlt => absurd hlt hc, fun _ hx => hother 15 (Ne.symm hx), fun _ hx => ?_⟩
    · rw [writeV_advance_v_same, hsum]
    · rw [writeV_advance_v_eq s _ hx, hsum, Nat.mod_eq_of_lt (by omega)]

/-! An instruction that writes the flag first and then the result `b`. -/

section
variable (s : State) (x : Index) (f b : Byte)

theorem flagFirst_rest :
    ((s.writeV flagReg f).writeV x b).advance.pc = s.pc + 2#16 ∧
      FrameExcept [.v, .pc] s ((s.writeV flagReg f).writeV x b).advance ∧
      ∀ r : Index, r ≠ x → r ≠ 15 → ((s.writeV flagReg f).writeV x b).advance.v[r] = s.v[r] :=
  ⟨rfl, writeV_writeV_advance_frame s _ _ _ _, fun _ hx hf => (writeV_v_other _ _ hx).trans (writeV_v_other s _ hf)⟩

theorem flagFirst_flag (h : x ≠ 15) : ((s.writeV flagReg f).writeV x b).advance.v[(15 : Index)] = f :=
  (writeV_v_other _ _ (Ne.symm h)).trans (writeV_v_same s flagReg f)

/-- The operand left by the flag write: the flag itself when it is VF (R176). -/
theorem readV_flagFirst (r : Index) : (s.writeV flagReg f).readV r = if r = 15 then f else s.v[r] := by
  by_cases h : r = 15
  · rw [if_pos h, h]
    exact writeV_v_same s flagReg f
  · rw [if_neg h]
    exact writeV_v_other s f h
end

theorem toNat_sub_byte (a b : Byte) : (a - b).toNat = (a.toNat + 256 - b.toNat) % 256 := by
  rw [BitVec.toNat_sub]
  omega

/-- Settles O35: the flag is written first, and the difference is taken from the registers it left. -/
theorem subtractionsUseTheStrictFlag : Obligations.SubtractionsUseTheStrictFlag := by
  intro x y s a b g h
  have hg : (greaterFlag (s.readV x) (s.readV y)).toNat = g := toNat_greaterFlag _ _
  have hh : (greaterFlag (s.readV y) (s.readV x)).toNat = h := toNat_greaterFlag _ _
  constructor
  · obtain ⟨hpc, hframe, hother⟩ := flagFirst_rest s x (greaterFlag (s.readV x) (s.readV y)) _
    refine ⟨decode_sub x y, _, rfl, hpc, hframe, hother, fun hx => ?_, fun hx hy => ?_, fun hx hy => ?_,
      fun hx hy => ?_, fun hx hy => ?_⟩
    · rw [flagFirst_flag _ _ _ _ hx, hg]
    · rw [writeV_advance_v_same, toNat_sub_byte, readV_flagFirst, readV_flagFirst, if_neg hx, if_neg hy]
    · rw [writeV_advance_v_same, toNat_sub_byte, readV_flagFirst, readV_flagFirst, if_neg hx, if_pos hy, hg]
    · rw [writeV_advance_v_same, toNat_sub_byte, readV_flagFirst, readV_flagFirst, if_pos hx, if_neg hy, hg]
    · rw [writeV_advance_v_same, hx, hy, BitVec.sub_self]; rfl
  · obtain ⟨hpc, hframe, hother⟩ := flagFirst_rest s x (greaterFlag (s.readV y) (s.readV x)) _
    refine ⟨decode_subn x y, _, rfl, hpc, hframe, hother, fun hx => ?_, fun hx hy => ?_, fun hx hy => ?_,
      fun hx hy => ?_, fun hxy => ?_⟩
    · rw [flagFirst_flag _ _ _ _ hx, hh]
    · rw [writeV_advance_v_same, toNat_sub_byte, readV_flagFirst, readV_flagFirst, if_neg hx, if_neg hy]
    · rw [writeV_advance_v_same, toNat_sub_byte, readV_flagFirst, readV_flagFirst, if_neg hx, if_pos hy, hh]
    · rw [writeV_advance_v_same, toNat_sub_byte, readV_flagFirst, readV_flagFirst, if_pos hx, if_neg hy, hh]
    · subst hxy
      have hzero : h = 0 := if_neg (Nat.lt_irrefl _)
      refine ⟨by rw [writeV_advance_v_same, BitVec.sub_self]; rfl, ?_⟩
      by_cases hx : x = 15
      · subst hx
        rw [writeV_advance_v_same, BitVec.sub_self]; rfl
      · rw [flagFirst_flag _ _ _ _ hx, hh, hzero]

theorem toNat_shrFlag (a : Byte) : (shrFlag a).toNat = a.toNat % 2 := by
  rw [shrFlag, BitVec.toNat_and]
  exact Nat.and_one_is_mod _

theorem toNat_ushiftRight_one (a : Byte) : (a >>> 1).toNat = a.toNat / 2 := by
  rw [BitVec.toNat_ushiftRight, Nat.shiftRight_eq_div_pow]

theorem toNat_shiftLeft_one (a : Byte) : (a <<< 1).toNat = 2 * a.toNat % 256 := by
  rw [BitVec.toNat_shiftLeft, Nat.shiftLeft_eq]
  omega

/-- Settles O36: the flag is written first; with x = 15 it is the flag that is shifted. -/
theorem shiftsFlagOneBitOfVx : Obligations.ShiftsFlagOneBitOfVx := by
  intro x d s a bit3
  have hr : (shrFlag (s.readV x)).toNat = a % 2 := toNat_shrFlag _
  have hl : (shlFlag (s.readV x)).toNat = bit3 := toNat_and_eight _
  constructor
  · obtain ⟨hpc, hframe, hother⟩ := flagFirst_rest s x (shrFlag (s.readV x)) _
    refine ⟨decode_shr x d, _, rfl, hpc, hframe, hother, fun hx => ⟨?_, ?_⟩, fun hx => ?_⟩
    · rw [writeV_advance_v_same, toNat_ushiftRight_one, readV_flagFirst, if_neg hx]
    · rw [flagFirst_flag _ _ _ _ hx, hr]
    · rw [writeV_advance_v_eq _ _ hx, toNat_ushiftRight_one, readV_flagFirst, if_pos hx, hr]
      omega
  · obtain ⟨hpc, hframe, hother⟩ := flagFirst_rest s x (shlFlag (s.readV x)) _
    refine ⟨decode_shl x d, _, rfl, hpc, hframe, hother, fun hx => ⟨?_, ?_⟩, fun hx => ?_⟩
    · rw [writeV_advance_v_same, toNat_shiftLeft_one, readV_flagFirst, if_neg hx]
    · rw [flagFirst_flag _ _ _ _ hx, hl]
    · have hle : bit3 ≤ 8 := by
        show (if a / 8 % 2 = 1 then 8 else 0) ≤ 8
        split <;> decide
      rw [writeV_advance_v_eq _ _ hx, toNat_shiftLeft_one, readV_flagFirst, if_pos hx, hl]
      omega

/-- Settles O37: one draw and one register write; the masked-out bits of the byte are 0. -/
theorem rndMasksOneFreshByte : Obligations.RndMasksOneFreshByte := by
  intro x kk s
  have hv : (s.drawn.writeV x (s.nextRandom &&& kk)).advance.v[x] = Config.randByte s.env.draws &&& kk :=
    writeV_advance_v_same _ x _
  refine ⟨decode_rnd x kk, _, rfl, hv, ?_, rfl, fun r hr => writeV_v_other s.drawn _ hr, rfl,
    drawn_writeV_advance_frame s x _⟩
  rw [hv, BitVec.and_assoc, BitVec.and_not_self]
  exact BitVec.and_zero

/-- Settles O39: below 0x10000 the sum does not wrap, from there on the table names the fault. -/
theorem addToAddressRegister : Obligations.AddToAddressRegister := by
  intro x s
  refine ⟨decode_addI x, fun h => ⟨_, exec_addI_sum x h, ?_, setI_advance_rest s _⟩, fun h => exec_latches (if_pos h)⟩
  have hsum : (s.i + zextByte (s.readV x)).toNat = (s.i.toNat + s.v[x].toNat) % 2 ^ 16 := by
    rw [BitVec.toNat_add, toNat_zextByte, State.readV]
  rw [State.advance_i, State.setI_i, hsum, Nat.mod_eq_of_lt (by omega)]

end Sys2Proof.Machine
end

section
/-! ### Key skips, the wait for a key and the timers (45_input_and_timers.md) -/

namespace Sys2Proof.Machine

/-- Settles O50: in range the skip tests one entry of the latch, above 15 the table names the fault. -/
theorem keySkipsReadTheLatch : Obligations.KeySkipsReadTheLatch := by
  intro x s
  refine ⟨decode_skp x, decode_sknp x, fun k hk => ?_,
    fun h => ⟨exec_latches (if_pos h), exec_latches (if_pos h)⟩⟩
  have hlt : s.v[x].toNat < 16 := by omega
  have hkey : s.keys[s.v[x].toNat] = s.keys[k] := getElem_congr_idx hk
  constructor
  · refine ⟨_, congrArg Host.Outcome.next (skipOnKey_skip true hlt), skipIf_spec s ?_⟩
    rw [hkey, beq_iff_eq]
  · refine ⟨_, congrArg Host.Outcome.next (skipOnKey_skip false hlt), skipIf_spec s ?_⟩
    rw [hkey, beq_iff_eq]

/-- Settles O51: the handler sets the wait, and the gate stops every cycle after it. -/
theorem waitForKeySuspendsTheMachine : Obligations.WaitForKeySuspendsTheMachine :=
  fun x s => ⟨decode_ldVxK x, (s.beginWait x).advance, rfl, rfl, rfl, rfl,
    (beginWait_frame s x).trans (advance_frame _), cycle_gated (.inr rfl), cycle_gated (.inr rfl)⟩

/-- Settles O52: each handler is one write. -/
theorem timerRegistersAreReadAndWritten : Obligations.TimerRegistersAreReadAndWritten := by
  intro x s
  refine ⟨⟨decode_ldVxDt x, _, rfl, writeV_advance_v_same s x _, writeV_advance_rest s x _⟩,
    ⟨decode_ldDtVx x, _, rfl, rfl, rfl, (setDt_frame s _).trans (advance_frame _)⟩,
    ⟨decode_ldStVx x, _, rfl, rfl, rfl, (setSt_frame s _).trans (advance_frame _)⟩⟩

end Sys2Proof.Machine
end

section
/-! ### Memory blocks (43_memory_block.md, 20_memory.md R63, R70) -/

namespace Sys2Proof.Machine

/-! The digits of a byte, as numbers (R190). -/

theorem length_bcdDigits (b : Byte) : (bcdDigits b).length = 3 := rfl

theorem toNat_hundreds (b : Byte) : ((bcdDigits b).getD 0 0#8).toNat = b.toNat / 100 := BitVec.toNat_udiv

theorem toNat_tens (b : Byte) : ((bcdDigits b).getD 1 0#8).toNat = b.toNat / 10 % 10 := by
  simp [bcdDigits]

theorem toNat_units (b : Byte) : ((bcdDigits b).getD 2 0#8).toNat = b.toNat % 10 := BitVec.toNat_umod

/-- What a block of bytes leaves at the k-th of its addresses. -/
theorem read_writeBytes_at {m : Memory} {a : Nat} {bs : List Byte} (hw : m.wf = true)
    (hl : a + bs.length ≤ Config.memSize) {k : Nat} (hk : k < bs.length) :
    (m.writeBytes a bs).read (a + k) = bs.getD k 0#8 := by
  rw [Memory.read_writeBytes hw hl, if_pos (by omega), Nat.add_sub_cancel_left]

/-- What it leaves elsewhere. -/
theorem read_writeBytes_off {m : Memory} {a : Nat} {bs : List Byte} (hw : m.wf = true)
    (hl : a + bs.length ≤ Config.memSize) {a' : Nat} (h : a' < a ∨ a + bs.length ≤ a') :
    (m.writeBytes a bs).read a' = m.read a' := by
  rw [Memory.read_writeBytes hw hl, if_neg (by omega)]

/-- Settles O40: one block of three bytes, or the fault of the table. -/
theorem bcdStoresThreeDigits : Obligations.BcdStoresThreeDigits := by
  intro x s hw
  refine ⟨decode_ldB x, fun h => ?_, fun h => exec_latches (if_pos h)⟩
  have hl : s.i.toNat + (bcdDigits (s.readV x)).length ≤ Config.memSize := by
    simp only [length_bcdDigits, Config.memSize]; omega
  refine ⟨_, exec_ldB_inRange x h, ?_, ?_, ?_, fun a ha => ?_, rfl, (setMem_frame s _).trans (advance_frame _)⟩
  · rw [← toNat_hundreds]
    exact congrArg BitVec.toNat (read_writeBytes_at hw hl (k := 0) (by rw [length_bcdDigits]; omega))
  · rw [← toNat_tens]
    exact congrArg BitVec.toNat (read_writeBytes_at hw hl (k := 1) (by rw [length_bcdDigits]; omega))
  · rw [← toNat_units]
    exact congrArg BitVec.toNat (read_writeBytes_at hw hl (k := 2) (by rw [length_bcdDigits]; omega))
  · exact read_writeBytes_off hw hl (ha.imp_right id)

/-- The k-th address that `LD [I], Vx` in range has written holds `V[k]`. -/
theorem storeRegs_read {x r : Index} {s t : State} (hw : s.mem.wf = true) (h : s.i.toNat + x.val ≤ 0xFFF)
    (e : exec (.storeRegs x) s = .next t) (hr : r ≤ x) : t.mem.read (s.i.toNat + r.val) = s.v[r] := by
  obtain ⟨-, -, hmem, -⟩ := exec_storeRegs x s t hw h e
  have hrx : r.val ≤ x.val := hr
  rw [hmem, if_pos (by omega), Nat.add_sub_cancel_left]
  exact getD_regsThrough s x r.val hrx

/-- Settles O41: one block of x + 1 bytes, or the fault of the table. -/
theorem storeRegistersThroughX : Obligations.StoreRegistersThroughX := by
  intro x s hw
  refine ⟨decode_storeRegs x, fun h => ?_, fun h => exec_latches (if_pos h)⟩
  have e := exec_storeRegs_inRange x h
  obtain ⟨-, hpc, hmem, hframe⟩ := exec_storeRegs x s _ hw h e
  refine ⟨_, e, fun r hr => storeRegs_read hw h e hr, fun a ha => ?_, hpc, hframe⟩
  rw [hmem, if_neg (by omega)]

theorem loadThrough_v (s : State) (x r : Index) :
    (s.loadThrough x).v[r] = if r ≤ x then s.mem.read (s.i.toNat + r.val) else s.v[r] := by
  simp [State.loadThrough]

/-- Settles O42: one block of reads, or the fault of the table. -/
theorem loadRegistersThroughX : Obligations.LoadRegistersThroughX := by
  intro x s
  refine ⟨decode_loadRegs x, fun h => ?_, fun h => exec_latches (if_pos h)⟩
  refine ⟨_, exec_loadRegs_inRange x h, fun r hr => ?_, fun r hr => ?_, rfl,
    (loadThrough_frame s x).trans (advance_frame _)⟩
  · exact (loadThrough_v s x r).trans (if_pos hr)
  · exact (loadThrough_v s x r).trans (if_neg (not_le.mpr hr))

/-- Settles O43: the load reads the addresses that the store wrote. -/
theorem loadAfterStoreRestoresRegisters : Obligations.LoadAfterStoreRestoresRegisters := by
  intro x s t u hw h e hmem hi
  have hui : u.i = s.i := hi.trans (exec_storeRegs x s t hw h e).1
  refine ⟨_, exec_loadRegs_inRange x (by rw [hui]; exact h), fun r hr => ?_⟩
  refine (loadThrough_v u x r).trans ?_
  rw [if_pos hr, hmem, hui]
  exact storeRegs_read hw h e hr

/-- Settles O44: the fetch reads two of the addresses that the store wrote. -/
theorem storeIsSeenByTheNextFetch : Obligations.StoreIsSeenByTheNextFetch := by
  intro x r r' s t u hw h e hmem hr' hrx hpc
  have hhi : u.mem.read u.pc.toNat = s.v[r] := by
    rw [hmem, hpc]
    exact storeRegs_read hw h e (Fin.le_def.mpr (by have := Fin.le_def.mp hrx; omega))
  have hlo : u.mem.read (u.pc.toNat + 1) = s.v[r'] := by
    rw [hmem, hpc, Nat.add_assoc, ← hr']
    exact storeRegs_read hw h e hrx
  rw [State.fetch, hhi, hlo, opcodeOf, toNat_append_add]
  omega

end Sys2Proof.Machine
end

section
/-! ### The display (44_display.md) -/

namespace Sys2Proof.Machine

theorem exec_cls (s : State) : exec .cls s = .next (s.setFb (Vector.replicate 32 0#64)).advance := rfl

theorem blank_row (r : Fin 32) : (Vector.replicate 32 0#64)[r] = 0#64 := by simp

/-- Settles O45: every row of the written framebuffer is the replicated 0. -/
theorem clearScreenBlanksEveryRow : Obligations.ClearScreenBlanksEveryRow :=
  fun d s => ⟨decode_cls d, _, exec_cls s, blank_row, rfl, (setFb_frame s _).trans (advance_frame _)⟩

/-! Column `col + j` of the row is the pixel `j` of the sprite byte, and `rowMask_bit` gives every column. -/

theorem rowMask_pixel (b : Byte) {col j : Nat} (hc : col < 64) (hj : j < 8) :
    (rowMask b col).getLsbD (63 - (col + j) % 64) = b.getLsbD (7 - j) := by
  have hcol : (63 - (63 - (col + j) % 64) + 64 - col) % 64 = j := by omega
  rw [rowMask_bit b col _ hc (by omega), hcol, decide_eq_true hj, Bool.true_and]

theorem rowMask_blank (b : Byte) {col p : Nat} (hc : col < 64) (hp : p < 64)
    (h : ∀ j < 8, p ≠ 63 - (col + j) % 64) : (rowMask b col).getLsbD p = false := by
  have hcol : ¬ (63 - p + 64 - col) % 64 < 8 := fun hlt => h _ hlt (by omega)
  rw [rowMask_bit b col p hc hp, decide_eq_false hcol, Bool.false_and]

/-- A rotation right by `col` moves bit `(col + p) mod 64` to bit `p`. -/
theorem getLsbD_rotateRight_64 (w : Row) {col p : Nat} (hc : col < 64) (hp : p < 64) :
    (w.rotateRight col).getLsbD p = w.getLsbD ((col + p) % 64) := by
  rw [BitVec.getLsbD_rotateRight, Nat.mod_eq_of_lt hc]
  by_cases h : p < 64 - col
  · rw [decide_eq_true h, cond_true, Nat.mod_eq_of_lt (by omega)]
  · have hidx : p - (64 - col) = (col + p) % 64 := by omega
    rw [decide_eq_false h, cond_false, decide_eq_true hp, Bool.true_and, hidx]

/-- A byte shifted to the top. -/
theorem getLsbD_topByte (b : Byte) {q : Nat} (hq : q < 64) :
    ((b.setWidth 64 : Row) <<< 56).getLsbD q = (decide (56 ≤ q) && b.getLsbD (q - 56)) := by
  by_cases h : 56 ≤ q
  · simp [hq, h]
  · simp [h, Nat.not_le.mp h]

/-- The rotation that R202 names. -/
theorem rowMask_eq_rotateRight (b : Byte) {col : Nat} (hc : col < 64) :
    rowMask b col = (b.setWidth 64 <<< 56).rotateRight col := by
  apply BitVec.eq_of_getLsbD_eq
  intro p hp
  have hidx : (col + p) % 64 - 56 = 7 - (63 - p + 64 - col) % 64 := by omega
  have hiff : (63 - p + 64 - col) % 64 < 8 ↔ 56 ≤ (col + p) % 64 := by omega
  rw [rowMask_bit b col p hc hp, getLsbD_rotateRight_64 _ hc hp, getLsbD_topByte b (Nat.mod_lt _ (by decide)), hidx,
    decide_eq_decide.mpr hiff]

/-- Settles O46: bit by bit. -/
theorem rowMaskPlacesTheEightPixels : Obligations.RowMaskPlacesTheEightPixels :=
  fun b _ hc => ⟨fun _ hj => rowMask_pixel b hc hj, fun _ hp h => rowMask_blank b hc hp h, rowMask_eq_rotateRight b hc⟩

/-! The picture and the flag that `DRW` of a sprite in memory leaves (R201, R203). -/

/-- The state that `DRW` of a sprite in memory answers. -/
def State.drew (s : State) (x y : Index) (n : Fin 16) : State :=
  ((s.setFb (s.drawSprite x y n).1).writeV flagReg (flagOf (s.drawSprite x y n).2)).advance

theorem exec_drw_drew {s : State} {x y : Index} {n : Fin 16} (h : spriteInMemory s n) :
    exec (.drw x y n) s = .next (s.drew x y n) := exec_drw s x y n h

theorem drew_flag_set {s : State} {x y : Index} {n : Fin 16} (h : ∃ k < n.val, collides s x y k) :
    (s.drew x y n).v[(15 : Index)] = 1#8 := by
  refine (writeV_v_same _ flagReg _).trans ?_
  rw [(draw_flag s x y n).mpr h]
  rfl

theorem drew_flag_clear {s : State} {x y : Index} {n : Fin 16} (h : ¬ ∃ k < n.val, collides s x y k) :
    (s.drew x y n).v[(15 : Index)] = 0#8 := by
  refine (writeV_v_same _ flagReg _).trans ?_
  rw [Bool.eq_false_iff.mpr fun hd => h ((draw_flag s x y n).mp hd)]
  rfl

/-- Settles O47: the rasterizer's rows and flag, or the fault of the table. -/
theorem drawXorsTheSpriteIn : Obligations.DrawXorsTheSpriteIn := by
  intro x y n s
  refine ⟨decode_drw x y n, fun h => ?_, fun h => exec_latches (if_pos (by omega))⟩
  exact ⟨s.drew x y n, exec_drw_drew h, draw_row s x y n, drew_flag_set, drew_flag_clear,
    fun r hr => writeV_v_other _ _ hr, rfl, ((setFb_frame s _).trans (writeV_frame _ _ _)).trans (advance_frame _)⟩

/-- Sprite row `k` falls on row `(V[y] + k) mod 32` (R201). -/
theorem drew_row_at (s : State) (x y : Index) (n : Fin 16) {k : Nat} (hk : k < n.val) :
    (s.drew x y n).fb[(s.v[y].toNat + k) % 32]'(Nat.mod_lt _ (by decide)) =
      s.fb[(s.v[y].toNat + k) % 32]'(Nat.mod_lt _ (by decide)) ^^^
        rowMask (s.mem.read (s.i.toNat + k)) (s.v[x].toNat % 64) := by
  have hrow := draw_row s x y n ⟨(s.v[y].toNat + k) % 32, Nat.mod_lt _ (by decide)⟩
  have hidx : ((s.v[y].toNat + k) % 32 + 256 - s.v[y].toNat) % 32 = k := by omega
  simp only [hidx, if_pos hk] at hrow
  exact hrow

/-- A mask XORed in once more is gone. -/
theorem xor_mask_twice (r m : Row) : r ^^^ m ^^^ m = r := by
  rw [BitVec.xor_assoc, BitVec.xor_self, BitVec.xor_zero]

/-- A mask that met no lit pixel is what is lit where it was drawn. -/
theorem xor_and_mask {r m : Row} (h : r &&& m = 0#64) : (r ^^^ m) &&& m = m := by
  ext p hp
  have hp0 : (r[p] && m[p]) = false := by rw [← BitVec.getElem_and, h, BitVec.getElem_zero]
  rw [BitVec.getElem_and, BitVec.getElem_xor]
  cases hm : m[p] <;> simp_all

section
variable {s : State} {x y : Index} {n : Fin 16}
  (hx : (s.drew x y n).v[x] = s.v[x]) (hy : (s.drew x y n).v[y] = s.v[y])
include hx hy

/-- A second draw from the same coordinates XORs the same masks into the same rows. -/
theorem drew_drew_row (r : Fin 32) : ((s.drew x y n).drew x y n).fb[r] = s.fb[r] := by
  have h1 : (s.drew x y n).fb[r] = _ := draw_row s x y n r
  have h2 : ((s.drew x y n).drew x y n).fb[r] = _ := draw_row (s.drew x y n) x y n r
  rw [hx, hy, h1] at h2
  rw [h2]
  split
  · exact xor_mask_twice _ _
  · rfl

/-- It meets every lit pixel of the sprite, if the first draw met none. -/
theorem drew_collides {k : Nat} (hk : k < n.val) (hb : s.mem.read (s.i.toNat + k) ≠ 0#8)
    (hno : ¬ ∃ k < n.val, collides s x y k) : collides (s.drew x y n) x y k := by
  have hblank := not_not.mp fun h => hno ⟨k, hk, h⟩
  have hmask : rowMask (s.mem.read (s.i.toNat + k)) (s.v[x].toNat % 64) ≠ 0#64 :=
    fun h => hb (rowMask_eq_zero _ _ (Nat.mod_lt _ (by decide)) h)
  have hlit := xor_and_mask hblank
  rw [← drew_row_at s x y n hk] at hlit
  simp only [collides, hx, hy]
  exact fun h => hmask (hlit.symm.trans h)
end

/-- Settles O48: the second draw meets the masks of the first. -/
theorem drawingTwiceRestoresThePicture : Obligations.DrawingTwiceRestoresThePicture := by
  intro x y n s t h e hx hy
  obtain rfl : s.drew x y n = t := Host.Outcome.next.inj ((exec_drw_drew h).symm.trans e)
  refine ⟨(s.drew x y n).drew x y n, exec_drw_drew h, drew_drew_row hx hy, fun h0 ⟨k, hk, hb⟩ => ?_⟩
  have hno : ¬ ∃ k < n.val, collides s x y k := fun hc => absurd ((drew_flag_set hc).symm.trans h0) (by decide)
  exact drew_flag_set ⟨k, hk, drew_collides hx hy hk hb hno⟩

/-- Settles O49: on blank rows no mask meets a lit pixel. -/
theorem drawOnClearScreenNeverCollides : Obligations.DrawOnClearScreenNeverCollides := by
  intro x y n s h
  refine ⟨_, _, exec_cls s, exec_drw_drew h, drew_flag_clear ?_⟩
  rintro ⟨k, -, hk⟩
  exact hk (by simp)

end Sys2Proof.Machine
end

section
/-! ### The boot transactions (70_reset_and_hazards.md R281 to R284) -/

namespace Sys2Proof.Machine

/-- The glyphs given follow glyph 0 (R281). -/
theorem getD_fontBytes_glyph (glyphs : Vector Byte 75) (k : Fin 75) :
    (fontBytes glyphs).getD (5 + k.val) 0#8 = glyphs[k] := by
  rw [fontBytes, List.getD_append_right _ _ _ _ (show glyphZero.length ≤ 5 + k.val from Nat.le_add_right 5 k.val)]
  simp [glyphZero]

/-- The font fits below the program. -/
theorem font_fits (glyphs : Vector Byte 75) : Config.fontBase + (fontBytes glyphs).length ≤ Config.memSize := by
  rw [length_fontBytes]
  decide

/-- A program of at most 3584 bytes fits above 0x200. -/
theorem program_fits {bytes : List Byte} (h : bytes.length ≤ 3584) :
    Config.programBase + bytes.length ≤ Config.memSize := by
  simp only [Config.programBase, Config.memSize]
  omega

/-- Settles O54: one block of 80 bytes at 0. -/
theorem initInstallsTheFont : Obligations.InitInstallsTheFont := by
  intro glyphs s hw
  refine ⟨fun hf => ?_, fun hf => if_pos hf⟩
  have hread (k : Nat) (hk : k < 80) : (s.mem.writeBytes Config.fontBase (fontBytes glyphs)).read k =
      (fontBytes glyphs).getD k 0#8 := by
    simpa [Config.fontBase] using read_writeBytes_at hw (font_fits glyphs) (k := k) (by rw [length_fontBytes]; exact hk)
  rw [initWith_ok glyphs hf]
  refine ⟨?_, fun k => ?_, fun a ha => ?_, setMem_frame s _⟩
  · simp only [Memory.readBytes, State.setMem_mem, hread, Nat.reduceAdd, Nat.reduceLT]
    rfl
  · rw [State.setMem_mem, hread _ (by omega), getD_fontBytes_glyph]
  · exact read_writeBytes_off hw (font_fits glyphs) (.inr (by rw [length_fontBytes]; exact ha))

/-- Settles O55: one block of bytes at 0x200, or the fault of a program that is too large. -/
theorem loadCopiesTheProgram : Obligations.LoadCopiesTheProgram := by
  intro bytes s hw hf
  constructor
  · intro hl
    rw [load_ok hf hl]
    exact ⟨fun k hk => read_writeBytes_at hw (program_fits hl) hk,
      fun a ha => read_writeBytes_off hw (program_fits hl) ha, setMem_frame s _⟩
  · intro hl
    rw [load_tooLarge hf hl, ← toNat_loadInfo]
    exact ⟨raise_latched s _ _, raise_frame s _ _⟩

/-- Two blocks of bytes that do not meet can be written in either order. -/
theorem writeBytes_comm {m : Memory} {a a' : Nat} {bs bs' : List Byte} (hw : m.wf = true)
    (hl : a + bs.length ≤ Config.memSize) (hl' : a' + bs'.length ≤ Config.memSize) (hd : a + bs.length ≤ a') :
    (m.writeBytes a bs).writeBytes a' bs' = (m.writeBytes a' bs').writeBytes a bs := by
  have hw1 := Memory.writeBytes_wf (bs := bs) (a := a) hw
  have hw2 := Memory.writeBytes_wf (bs := bs') (a := a') hw
  refine Memory.ext (Memory.writeBytes_wf hw1) (Memory.writeBytes_wf hw2) fun q => ?_
  rw [Memory.read_writeBytes hw1 hl', Memory.read_writeBytes hw hl, Memory.read_writeBytes hw2 hl,
    Memory.read_writeBytes hw hl']
  split
  · rw [if_neg (by omega)]
  · rfl

/-! Each boot transaction after the other has replaced memory. -/

theorem initWith_setMem (glyphs : Vector Byte 75) {s : State} (m : Memory) (hf : s.faulted = false) :
    (s.setMem m).initWith glyphs = s.setMem (m.writeBytes Config.fontBase (fontBytes glyphs)) :=
  initWith_ok (s := s.setMem m) glyphs hf

theorem load_setMem {bytes : List Byte} {s : State} (m : Memory) (hf : s.faulted = false) (hl : bytes.length ≤ 3584) :
    (s.setMem m).load bytes = s.setMem (m.writeBytes Config.programBase bytes) :=
  load_ok (s := s.setMem m) hf hl

/-- Settles O56: font and program do not meet. -/
theorem initAndLoadCommute : Obligations.InitAndLoadCommute := by
  intro glyphs bytes s hw hl
  cases hf : s.faulted with
  | true =>
    have hi : s.initWith glyphs = s := if_pos hf
    rw [hi, load_of_faulted hf, hi]
  | false =>
    have hd : Config.fontBase + (fontBytes glyphs).length ≤ Config.programBase := by
      rw [length_fontBytes]
      decide
    rw [initWith_ok glyphs hf, load_ok hf hl, load_setMem _ hf hl, initWith_setMem glyphs _ hf,
      writeBytes_comm hw (font_fits glyphs) (program_fits hl) hd]

/-- A step that performs `init` within the contract, in an unfaulted state (R281, R284). -/
theorem step_init {s : State} (h : s.nextTransaction = .init) (hi : s.env.inited = false) (hc : s.env.cycled = false)
    (hf : s.faulted = false) :
    step s = .next (s.taken.setMem (s.mem.writeBytes Config.fontBase (fontBytes standardGlyphs))).noteInit := by
  have hcontract : ¬ (s.taken.env.inited || s.taken.env.cycled) = true := by simp [hi, hc]
  rw [step_eq, h, transact, if_neg hcontract, State.init, initWith_ok standardGlyphs (s := s.taken) hf]
  rfl

/-- A step that performs `load` of a program that fits within the contract, in an unfaulted state (R282, R284). -/
theorem step_load {s : State} {bytes : List Byte} (h : s.nextTransaction = .load bytes) (hi : s.env.loaded = false)
    (hc : s.env.cycled = false) (hf : s.faulted = false) (hl : bytes.length ≤ 3584) :
    step s = .next (s.taken.setMem (s.mem.writeBytes Config.programBase bytes)).noteLoad := by
  have hcontract : ¬ (s.taken.env.loaded || s.taken.env.cycled) = true := by simp [hi, hc]
  rw [step_eq, h, transact, if_neg hcontract, load_ok (s := s.taken) hf hl]
  rfl

/-- The memory of the reset state after `init` and `load` (R61). -/
theorem boot_read {bytes : List Byte} (hl : bytes.length ≤ 3584) (a : Nat) :
    Memory.read ((State.reset.mem.writeBytes Config.fontBase (fontBytes standardGlyphs)).writeBytes
        Config.programBase bytes) a =
      if a < 0x50 then (fontBytes standardGlyphs).getD a 0#8
      else if a < 0x200 then 0#8
      else if a < 0x200 + bytes.length then bytes.getD (a - 0x200) 0#8
      else 0#8 := by
  have hw : State.reset.mem.wf = true := rfl
  have h0 : State.reset.mem.read a = 0#8 := rfl
  rw [Memory.read_writeBytes (Memory.writeBytes_wf hw) (program_fits hl),
    Memory.read_writeBytes hw (font_fits standardGlyphs), length_fontBytes, h0]
  simp only [Config.programBase, Config.fontBase, Nat.zero_le, true_and, Nat.zero_add, Nat.sub_zero]
  by_cases hfont : a < 0x50
  · rw [if_neg (by omega), if_pos hfont, if_pos hfont]
  rw [if_neg hfont, if_neg hfont]
  by_cases hlow : a < 0x200
  · rw [if_neg (by omega), if_pos hlow]
  rw [if_neg hlow]
  exact if_congr (and_iff_right (Nat.not_lt.mp hlow)) rfl rfl

/-- Settles O57: two steps, each one block of bytes. -/
theorem bootLaysOutTheMemoryMap : Obligations.BootLaysOutTheMemoryMap := by
  intro bytes hl
  refine ⟨_, (run_succ 1 (step_init rfl rfl rfl rfl)).trans (run_succ 0 (step_load rfl rfl rfl rfl hl)), fun a => ?_,
    fun p hp => ?_⟩
  · rw [State.noteLoad_mem, State.setMem_mem, State.noteInit_mem, State.setMem_mem]
    exact boot_read hl a
  · cases p <;> simp [Unchanged] at hp ⊢

end Sys2Proof.Machine
end
